-- ==== Sys2Proof/Word.lean ====
section
/-! DEFINITION. The units the block moves: bytes and 16-bit command words (00_scope.md R15, 30_encoding.md R59). -/

namespace Sys2Proof

/-- A byte: the datum of every queue and buffer (00_scope.md R15, 20_memory.md R46). -/
abbrev Byte := BitVec 8

/-- A command word: one 16-bit unit on a port (30_encoding.md R59, 20_memory.md R47). -/
abbrev Word := BitVec 16

end Sys2Proof
end

