-- ==== Sys2Proof/Config.lean ====
section
/-! DEFINITION. The implementation parameters of 00_scope.md section 3, the values the spec leaves open, and the names
of the ports and buffers. -/

namespace Sys2Proof

/-- The two ports a command word can arrive on (30_encoding.md R59). -/
inductive Port where
  | command
  | tick
deriving DecidableEq, Repr

/-- The three internal byte arrays (20_memory.md R42). -/
inductive Buf where
  | tx
  | rx
  | pkt
deriving DecidableEq, Repr

/-- Why a word has no meaning (30_encoding.md R70 and R71, 41_tick.md R93). Each reason is safe: the model stops
where the spec says nothing of the hardware (60_exceptions.md R127). -/
inductive Reject where
  /-- An opcode of 0x0, 0x6, 0x7 or 0x9 to 0xF (R70). -/
  | reservedOpcode
  /-- A TICK word on the command port, or a command word on the tick port (R59, R70). -/
  | wrongPort
  /-- A bit that the format requires to be zero is set (R61, R71). -/
  | nonzeroField
  /-- A TICK word with A = 0 and N not 0 (R71, R93). -/
  | batchWithoutData
  /-- A TICK word with N above C_RX (R71, R93). -/
  | batchTooLong
deriving DecidableEq, Repr

/-- The parameters of the block (00_scope.md section 3). The model takes them as arguments: they stand in `State.cfg`,
which no step changes (assumption 1). -/
structure Config where
  /-- C_TX, the TX queue's capacity (R5). -/
  cTx : Nat
  /-- C_RX, the RX queue's capacity (R6). -/
  cRx : Nat
  /-- MAX_PKT, the OUT endpoint's maximum packet size (R7). -/
  maxPkt : Nat
  /-- TARGET, the expected total of one logical transfer (R8). -/
  target : Nat
  /-- MAX_REJECT, the consecutive rejects tolerated without a discard (R9). -/
  maxReject : Nat
  /-- SETTLE_US, which no rule reads (R10, R153). -/
  settleUs : Nat
  /-- RXBUF_CAP, the capacity of the accountant's packet buffer (R11). -/
  rxbufCap : Nat
  /-- W_SIZE, the width of acc.rxSize (R12). -/
  wSize : Nat
  /-- W_XFER, the width of acc.rxCount (R12). -/
  wXfer : Nat
  /-- NO_DATA, what GET returns when nothing is unread (R13). -/
  noData : Word
  /-- DISCARD_CLEARS_ZLP, OPEN (R14). -/
  discardClearsZlp : Bool
  /-- TICK_PERIOD, OPEN, which no rule reads (60_exceptions.md R136). -/
  tickPeriod : Nat
deriving DecidableEq, Repr

/-- DISCARD_CLEARS_ZLP as the spec leaves it: OPEN (R14, D11). A free value: nothing can be proved of it. -/
opaque Config.openDiscardClearsZlp : Bool

/-- TICK_PERIOD as the spec leaves it: OPEN (D31). A free value that no rule reads. -/
opaque Config.openTickPeriod : Nat

/-- Byte `i` of the batch ENV offers at its `d`-th answer, where the RX data lane does not list it: a draw
(41_tick.md R92). A free value. -/
opaque Config.freeBatchByte (d i : Nat) : Byte

/-- Byte `i` of the packet ENV delivers at its `d`-th answer, where the OUT packet lane does not list it: a draw
(42_accountant.md R104). A free value. -/
opaque Config.freePacketByte (d i : Nat) : Byte

/-- Byte `i` of buffer `b` after the `r`-th reset, before anything writes it: unspecified (10_state.md R22, R26, R31).
A free value. -/
opaque Config.unspecifiedByte (r : Nat) (b : Buf) (i : Nat) : Byte

/-- Every parameter at the default of 00_scope.md section 3, the two OPEN ones left free. -/
def Config.default : Config where
  cTx := 64
  cRx := 64
  maxPkt := 64
  target := 2052
  maxReject := 4
  settleUs := 100
  rxbufCap := 64
  wSize := 32
  wXfer := 32
  noData := 0xFFFF#16
  discardClearsZlp := Config.openDiscardClearsZlp
  tickPeriod := Config.openTickPeriod

/-- The ranges of 00_scope.md R5 to R9 and R13 (D30). -/
abbrev Config.Wf (c : Config) : Prop :=
  (1 ≤ c.cTx ∧ c.cTx ≤ 127) ∧ (1 ≤ c.cRx ∧ c.cRx ≤ 64) ∧ (1 ≤ c.maxPkt ∧ c.maxPkt ≤ 4095) ∧
    c.target < 2 ^ c.wSize ∧ c.maxReject ≤ 6 ∧ 0x100 ≤ c.noData.toNat

/-- The capacity of each buffer (10_state.md R22, R26, R31). -/
def Config.capacity (c : Config) : Buf → Nat
  | .tx => c.cTx
  | .rx => c.cRx
  | .pkt => c.rxbufCap

end Sys2Proof
end

