-- ==== Sys2Proof/Machine/State.lean ====
section
/-! DEFINITION. The state of the block: every element of spec/10_state.md section 9, the parameters, and what stands on
its ports (section 8). -/

namespace Sys2Proof.Machine

/-- The contents of a byte array: (index, byte) cells, indexes strictly rising. An index not listed has not been
written since reset and its byte is unspecified (10_state.md R22, R26, R31; assumption 7). -/
abbrev Memory := List Host.Cell

/-- A PUT micro-step that MAIN still has to perform (10_state.md R33). -/
inductive MicroStep where
  | putByte (b : Byte)
deriving DecidableEq, Repr

/-- An entry of the event history (10_state.md R35, 60_exceptions.md R122). -/
inductive Event where
  /-- PKT with len > MAX_PKT: the transfer index and the length. -/
  | illegalPacket (k len : Nat)
  /-- A short packet that closes at a total other than TARGET: the transfer index and the total. -/
  | sizeMismatch (k total : Nat)
  /-- TICK's discard: the bytes dropped. -/
  | txDiscard (n : Nat)
  /-- A short packet that closes at TARGET. -/
  | transferOk (k total : Nat)
  /-- A hand-off to the TX transport: the bytes sent, possibly none. -/
  | txPacket (s : List Byte)
  /-- CONFIG's one-shot output (10_state.md R41). -/
  | outEpEnable
deriving DecidableEq, Repr

/-- A command on the command port: its word, and the bytes that the OUT packet lane lists beside it
(10_state.md R37, R40). -/
structure Command where
  word : Word
  lane : List Byte
deriving DecidableEq, Repr

/-- One entry of the interleaving (00_scope.md R18): who steps next. The model's own: it makes the choice the spec
leaves open a part of the state (assumption 3). -/
inductive Turn where
  /-- MAIN takes a step (40_queue_ops.md R75). -/
  | main
  /-- The tick port receives a word, with the bytes the RX data lane lists (10_state.md R38). -/
  | tick (word : Word) (lane : List Byte)
  /-- `rst` is asserted; MAIN then issues `cmds` from ip = 0 on (70_reset_and_hazards.md R141, R143). -/
  | rst (cmds : List Command)
deriving DecidableEq, Repr

/-- Why a step, or a read of `res`, stops. -/
inductive Fault where
  /-- An access at index `i` of buffer `b`, at or above its capacity (20_memory.md R43). Raised by GET and by a TICK
  flush, only in states that break 10_state.md R36. Safe: no run reaches such a state (assumption 8). -/
  | bufferIndex (b : Buf) (i : Nat)
  /-- The issuer reads `res` before the first GET, which a model must treat as a fault (10_state.md R20;
  93_implementation_defined.md I9). Raised by `State.readRes`, by no step. Safe:
  the spec calls this read a fault of the issuing program. -/
  | resUnwritten
deriving DecidableEq, Repr

/-- Why the model gives a step no meaning (60_exceptions.md R127). -/
inductive Refusal where
  /-- An instruction without a meaning in this model. Raised by `exec` in an arm that is not modelled; safe. -/
  | notModelled (mnemonic : String)
  /-- A word that 30_encoding.md R70 or R71 refuses, or a tick that breaks 41_tick.md R93. Raised by the fetch of
  either port and by TICK; safe. -/
  | word (why : Reject)
deriving DecidableEq, Repr

/-- The machine. -/
structure State where
  /-- The parameters (00_scope.md section 3); no step changes them. -/
  cfg : Config
  /-- `res`, the result of the last GET (R20). -/
  res : Word
  /-- Whether a GET has written `res` since reset: R20 gives its reset value as "unwritten". -/
  resWritten : Bool
  /-- `txbuf` (R22). -/
  txbuf : Memory
  /-- `txq.count` (R23). -/
  txqCount : BitVec 7
  /-- `txq.reject` (R24). -/
  txqReject : BitVec 3
  /-- `txq.zlp` (R25). -/
  txqZlp : Bool
  /-- `rxbuf` (R26). -/
  rxbuf : Memory
  /-- `rxq.count` (R27). -/
  rxqCount : BitVec 7
  /-- `rxq.cursor` (R28). -/
  rxqCursor : BitVec 7
  /-- `acc.rxSize`, kept below 2^W_SIZE (R29). -/
  accRxSize : Nat
  /-- `acc.rxCount`, kept below 2^W_XFER (R30). -/
  accRxCount : Nat
  /-- `pktbuf` (R31). -/
  pktbuf : Memory
  /-- `main.pend` (R33). -/
  mainPend : List MicroStep
  /-- `ip` (R21). -/
  ip : Nat
  /-- `hist`, oldest event first (R35). -/
  hist : List Event
  /-- The command port: the sequence MAIN issues, indexed by `ip` (R21, R37). -/
  cmds : List Command
  /-- The bytes the OUT packet lane lists for the command being issued (R40). -/
  outLane : List Byte
  /-- The bytes the RX data lane lists for the tick being taken (R38). -/
  rxLane : List Byte
  /-- The steps still to come, first one first (R18). -/
  turns : List Turn
  /-- The model's own: how many ticks and packets ENV has answered (assumption 9). -/
  drawCount : Nat
  /-- The model's own: how many times `rst` was asserted (assumption 7). -/
  resetCount : Nat
deriving DecidableEq, Repr

/-- The reset values of 70_reset_and_hazards.md R141 for a block with parameters `c`, with nothing on its ports. -/
def State.resetWith (c : Config) : State where
  cfg := c
  res := 0#16
  resWritten := false
  txbuf := []
  txqCount := 0#7
  txqReject := 0#3
  txqZlp := false
  rxbuf := []
  rxqCount := 0#7
  rxqCursor := 0#7
  accRxSize := 0
  accRxCount := 0
  pktbuf := []
  mainPend := []
  ip := 0
  hist := []
  cmds := []
  outLane := []
  rxLane := []
  turns := []
  drawCount := 0
  resetCount := 0

/-- The machine right after reset (R141), at the default parameters. -/
def State.reset : State := State.resetWith Config.default

end Sys2Proof.Machine
end

