-- ==== Sys2Proof/Machine/Ops.lean ====
section
/-! DEFINITION. The named operations over buffers, registers and MAIN's progress that the meanings are built from. The
block raises no exception and saves nothing when a tick is taken (60_exceptions.md R123, R132), so the one shared
operation for an error is `State.record`. -/

namespace Sys2Proof.Machine

/-! ### Byte arrays (20_memory.md R42 to R45) -/

/-- What was last written at index `i`, none where nothing was. -/
def Memory.lookup : Memory → Nat → Option Byte
  | [], _ => none
  | (a, b) :: m, i => if a = i then some b else Memory.lookup m i

/-- `b` written at index `i`; the indexes stay strictly rising. -/
def Memory.write : Memory → Nat → Byte → Memory
  | [], i, b => [(i, b)]
  | (a, x) :: m, i, b =>
    if i < a then (i, b) :: (a, x) :: m else if i = a then (i, b) :: m else (a, x) :: Memory.write m i b

/-- `bs` written at the indexes from `i` on. -/
def Memory.writeAll : Memory → Nat → List Byte → Memory
  | m, _, [] => m
  | m, i, b :: bs => Memory.writeAll (Memory.write m i b) (i + 1) bs

/-- The canonical form: indexes strictly rising. -/
abbrev Memory.Wf (m : Memory) : Prop := (m.map Prod.fst).Pairwise (· < ·)

/-- Every listed index is below `n`. -/
abbrev Memory.Below (m : Memory) (n : Nat) : Prop := ∀ i ∈ m.map Prod.fst, i < n

/-- The array a buffer name stands for (R42). -/
def State.buffer (s : State) : Buf → Memory
  | .tx => s.txbuf
  | .rx => s.rxbuf
  | .pkt => s.pktbuf

/-- The array of buffer `b` replaced by `m`. -/
def State.setBuffer (b : Buf) (m : Memory) (s : State) : State :=
  match b with
  | .tx => { s with txbuf := m }
  | .rx => { s with rxbuf := m }
  | .pkt => { s with pktbuf := m }

/-- The byte at index `i` of buffer `b`: what was written there, else the unspecified byte of the reset state
(10_state.md R22, R26, R31; assumption 7). -/
def State.byteAt (s : State) (b : Buf) (i : Nat) : Byte :=
  (Memory.lookup (s.buffer b) i).getD (Config.unspecifiedByte s.resetCount b i)

/-- `bs` stored in buffer `b` from index `i` on, one byte at a time (20_memory.md R48). -/
def State.store (b : Buf) (i : Nat) (bs : List Byte) (s : State) : State :=
  s.setBuffer b (Memory.writeAll (s.buffer b) i bs)

/-- `[txbuf[0], ..., txbuf[txq.count-1]]`, the pending batch (20_memory.md R43). -/
def State.txBatch (s : State) : List Byte := (List.range s.txqCount.toNat).map (s.byteAt .tx)

/-! ### Registers and history -/

/-- `Record(e)`: append to the event history (10_state.md R35, 60_exceptions.md R122). -/
def State.record (e : Event) (s : State) : State := { s with hist := s.hist ++ [e] }

/-- `main.pend <- p` (10_state.md R33). -/
def State.setPend (p : List MicroStep) (s : State) : State := { s with mainPend := p }

/-- `ip <- ip + 1` (10_state.md R21). -/
def State.advanceIp (s : State) : State := { s with ip := s.ip + 1 }

/-- `res <- v`, which a GET does (10_state.md R20). -/
def State.setRes (v : Word) (s : State) : State := { s with res := v, resWritten := true }

/-- The TX queue's count, reject counter and flag written (10_state.md R23 to R25). -/
def State.setTxq (count : BitVec 7) (reject : BitVec 3) (zlp : Bool) (s : State) : State :=
  { s with txqCount := count, txqReject := reject, txqZlp := zlp }

/-- The RX queue's count and cursor written (10_state.md R27, R28). -/
def State.setRxq (count cursor : BitVec 7) (s : State) : State := { s with rxqCount := count, rxqCursor := cursor }

/-- The accountant's counters written (10_state.md R29, R30). -/
def State.setAcc (size count : Nat) (s : State) : State := { s with accRxSize := size, accRxCount := count }

/-- ENV has answered once more; its next answer is drawn afresh (41_tick.md R92; assumption 9). -/
def State.countDraw (s : State) : State := { s with drawCount := s.drawCount + 1 }

/-- The steps still to come (00_scope.md R18). -/
def State.setTurns (ts : List Turn) (s : State) : State := { s with turns := ts }

/-- What the OUT packet lane lists for the command being issued (10_state.md R40). -/
def State.setOutLane (bs : List Byte) (s : State) : State := { s with outLane := bs }

/-- What the RX data lane lists for the tick being taken (10_state.md R38). -/
def State.setRxLane (bs : List Byte) (s : State) : State := { s with rxLane := bs }

/-- The issuer's read of `res`. Before the first GET it is a fault, because the spec says so: "A model must treat a read
of `res` before the first GET as a fault of the issuing program, not as a value" (10_state.md R20;
93_implementation_defined.md I9). No command and no step reads `res`. -/
def State.readRes (s : State) : Host.Outcome Word Fault Refusal :=
  if s.resWritten then .next s.res else .fault .resUnwritten

/-- The numeric code of an event (60_exceptions.md R122). -/
def eventCode : Event → Byte
  | .illegalPacket _ _ => 0x01#8
  | .sizeMismatch _ _ => 0x02#8
  | .txDiscard _ => 0x03#8
  | .transferOk _ _ => 0x10#8
  | .txPacket _ => 0x20#8
  | .outEpEnable => 0x21#8

/-- Codes 0x01 to 0x03 are errors, each non-fatal (60_exceptions.md R122). -/
def eventIsError (e : Event) : Bool := decide (0x01 ≤ (eventCode e).toNat ∧ (eventCode e).toNat ≤ 0x03)

/-- The packets handed to the TX transport, oldest first (10_state.md R39). -/
def txPackets : List Event → List (List Byte)
  | [] => []
  | .txPacket p :: h => p :: txPackets h
  | .illegalPacket _ _ :: h => txPackets h
  | .sizeMismatch _ _ :: h => txPackets h
  | .txDiscard _ :: h => txPackets h
  | .transferOk _ _ :: h => txPackets h
  | .outEpEnable :: h => txPackets h

/-! ### MAIN's progress (40_queue_ops.md R75) -/

/-- `if main.pend == []: ip <- ip + 1`, the end of an issue action and of a micro-step (R75). -/
def State.finishIfDone (s : State) : State := if s.mainPend = [] then s.advanceIp else s

/-- `PutByte(b)`: append `b` at index `txq.count`, or hold (none) on a full queue (R76, R77). -/
def putByte (b : Byte) (s : State) : Option State :=
  if s.txqCount.toNat < s.cfg.cTx then
    some ((s.store .tx s.txqCount.toNat [b]).setTxq (s.txqCount + 1#7) s.txqReject s.txqZlp)
  else none

/-- MAIN performs the head of `main.pend`; on a hold nothing changes (R75, R77). -/
def runMicroStep (s : State) : State :=
  match s.mainPend with
  | [] => s
  | .putByte b :: rest =>
    match putByte b s with
    | none => s
    | some t => (t.setPend rest).finishIfDone

/-! ### Reset (70_reset_and_hazards.md R141 to R143) -/

/-- `rst`: every element of the block at its reset value, the parameters and ENV's side left alone (R142), and MAIN
taking its first command of `cmds` at ip = 0 (R143). The unspecified bytes are unspecified anew (assumption 12). -/
def State.assertRst (cmds : List Command) (s : State) : State :=
  { State.resetWith s.cfg with
    cmds := cmds, outLane := s.outLane, rxLane := s.rxLane, turns := s.turns, drawCount := s.drawCount,
    resetCount := s.resetCount + 1 }

end Sys2Proof.Machine
end

