-- ==== Sys2Proof/Machine/Operands.lean ====
section
/-! DEFINITION. The operands that do not travel in the command word, and the forms a byte or a length takes before it
is used: ENV's batch and packet bytes (10_state.md R38, R40), GET's result (40_queue_ops.md R85). -/

namespace Sys2Proof.Machine

/-- The batch `s` of N bytes of the tick being taken: the RX data lane's bytes, and a draw of ENV wherever the lane
lists none (10_state.md R38, 41_tick.md R92; assumption 9). -/
def State.batchBytes (s : State) (n : Nat) : List Byte :=
  (List.range n).map fun i => (s.rxLane[i]?).getD (Config.freeBatchByte s.drawCount i)

/-- The first `n` payload bytes of the packet of this PKT: the OUT packet lane's bytes, and a draw of ENV wherever the
lane lists none (10_state.md R40, 42_accountant.md R104; assumption 9). -/
def State.packetBytes (s : State) (n : Nat) : List Byte :=
  (List.range n).map fun i => (s.outLane[i]?).getD (Config.freePacketByte s.drawCount i)

/-- What GET returns for a data byte: CR read as LF, any other byte zero-extended (40_queue_ops.md R85, R86). -/
def getResult (b : Byte) : Word := if b = 0x0D#8 then 0x000A#16 else b.setWidth 16

end Sys2Proof.Machine
end

