-- ==== Sys2Proof/Machine/Text.lean ====
section
/-! DEFINITION. The string path and the accountant's diagnostic text (40_queue_ops.md R79 to R83, 42_accountant.md
R113 to R117), in the ASCII codes of 00_scope.md R15 (assumption 17). -/

namespace Sys2Proof.Machine

/-- The put micro-steps that PUTT of one character loads: LF as CR LF, any other byte itself (40_queue_ops.md R79). -/
def stringPath (b : Byte) : List MicroStep :=
  if b = 0x0A#8 then [.putByte 0x0D#8, .putByte 0x0A#8] else [.putByte b]

/-- `Text(t)`: the micro-steps that PUTT of each character of `t` would load (42_accountant.md R105). -/
def textSteps (t : List Byte) : List MicroStep := t.flatMap stringPath

/-- The decimal digits of `v` in ASCII, most significant first, the last `fuel` of them at most. -/
def decDigits : Nat → Nat → List Byte
  | 0, _ => []
  | fuel + 1, v => (if v < 10 then [] else decDigits fuel (v / 10)) ++ [BitVec.ofNat 8 (0x30 + v % 10)]

/-- `Dec(v)`: unsigned decimal, no sign, no padding, no leading zeros, `"0"` for 0 (42_accountant.md R115). -/
def dec (v : Nat) : List Byte := decDigits (v + 1) v

/-- `Dec(k) ++ " - " ++ Dec(total) ++ "B\n"` (42_accountant.md R105, R113). -/
def mismatchText (k total : Nat) : List Byte :=
  dec k ++ [0x20#8, 0x2D#8, 0x20#8] ++ dec total ++ [0x42#8, 0x0A#8]

/-- `Dec(k) ++ " - Illegal " ++ Dec(len) ++ "B\n"` (42_accountant.md R105, R114). -/
def illegalText (k len : Nat) : List Byte :=
  dec k ++ [0x20#8, 0x2D#8, 0x20#8, 0x49#8, 0x6C#8, 0x6C#8, 0x65#8, 0x67#8, 0x61#8, 0x6C#8, 0x20#8] ++ dec len ++
    [0x42#8, 0x0A#8]

/-- The marker `'*'` (00_scope.md R15, 42_accountant.md R116). -/
def marker : Byte := 0x2A#8

end Sys2Proof.Machine
end

