-- ==== Sys2Proof/Machine/Accountant.lean ====
section
/-! DEFINITION. The Bulk Transfer Accountant (spec/42_accountant.md): PKT's three classes, and CONFIG. -/

namespace Sys2Proof.Machine

/-- Steps 1 and 2 of PKT: the settling delay changes nothing (R109); the payload goes into `pktbuf`, bounded by
RXBUF_CAP (20_memory.md R45). -/
def copyPayload (len : BitVec 12) (s : State) : State :=
  (s.store .pkt 0 (s.packetBytes (min len.toNat s.cfg.rxbufCap))).countDraw

/-- A transfer concludes: `acc.rxSize <- 0`, `acc.rxCount <- k + 1` modulo 2^W_XFER (R107, R108). -/
def concludeTransfer (s : State) : State := s.setAcc 0 ((s.accRxCount + 1) % 2 ^ s.cfg.wXfer)

/-- `acc.rxSize + len` modulo 2^W_SIZE (R105, R121). LEN keeps its 12 bits and only the sum is reduced; for a W_SIZE
below 12, where R67's zero-extension of LEN to W_SIZE bits says nothing, that is the model's choice (DESIGN CHOICE,
assumption 23), and so it is in the copy, in the three classes and in the recorded and printed length. -/
def totalWith (len : BitVec 12) (s : State) : Nat := (s.accRxSize + len.toNat) % 2 ^ s.cfg.wSize

/-- An oversized packet: recorded, its line queued without a marker, and the transfer concluded (R107, R114). -/
def oversizedPacket (len : BitVec 12) (s : State) : State :=
  concludeTransfer ((s.record (.illegalPacket s.accRxCount len.toNat)).setPend
    (textSteps (illegalText s.accRxCount len.toNat)))

/-- A full-size packet: accumulated, the transfer left open (R106). -/
def fullSizePacket (len : BitVec 12) (s : State) : State := s.setAcc (totalWith len s) s.accRxCount

/-- A short packet: compared with TARGET, a mismatch recorded and its line and the marker queued, and the transfer
concluded (R108, R113). -/
def shortPacket (len : BitVec 12) (s : State) : State :=
  if totalWith len s ≠ s.cfg.target then
    concludeTransfer ((s.record (.sizeMismatch s.accRxCount (totalWith len s))).setPend
      (textSteps (mismatchText s.accRxCount (totalWith len s)) ++ [.putByte marker]))
  else concludeTransfer (s.record (.transferOk s.accRxCount (totalWith len s)))

/-- Step 3 of PKT: the three classes, tested in order on unsigned values (R111). -/
def classify (len : BitVec 12) (s : State) : State :=
  if s.cfg.maxPkt < len.toNat then oversizedPacket len s
  else if len.toNat = s.cfg.maxPkt then fullSizePacket len s
  else shortPacket len s

/-- PKT's issue action, one atomic step (R105). -/
def execPkt (len : BitVec 12) (s : State) : Host.Outcome State Fault Refusal :=
  .next (classify len (copyPayload len s)).finishIfDone

/-- CONFIG: `acc.rxSize <- 0` and the OUT endpoint enabled (R112). -/
def execConfig (s : State) : Host.Outcome State Fault Refusal :=
  .next ((s.setAcc 0 s.accRxCount).record .outEpEnable).finishIfDone

end Sys2Proof.Machine
end

