-- ==== Sys2Proof/Machine/Flags.lean ====
section
/-! DEFINITION. The block's one flag, `txq.zlp`, and the two conditions read off state (10_state.md R25, R32). -/

namespace Sys2Proof.Machine

/-- TX pending: `txq.count > 0 or txq.zlp` (R32). -/
def State.txPending (s : State) : Bool := decide (0 < s.txqCount.toNat) || s.txqZlp

/-- RX drained: `rxq.cursor == rxq.count` (R32). -/
def State.rxDrained (s : State) : Bool := s.rxqCursor == s.rxqCount

/-- What a flush writes to `txq.zlp`: `n_sent == C_TX` (R25, 41_tick.md R95). -/
def State.flushZlp (s : State) : Bool := s.txqCount.toNat == s.cfg.cTx

/-- What a discard leaves in `txq.zlp`: 0 when DISCARD_CLEARS_ZLP, else the flag unchanged (R25, 41_tick.md R96). -/
def State.discardZlp (s : State) : Bool := if s.cfg.discardClearsZlp then false else s.txqZlp

end Sys2Proof.Machine
end

