-- ==== Sys2Proof/Machine/Queue.lean ====
section
/-! DEFINITION. The issue actions of PUT, PUTT and GET (spec/40_queue_ops.md). -/

namespace Sys2Proof.Machine

/-- PUT: `main.pend <- [PutByte(b)]` (R76). The put itself is MAIN's next micro-step, `runMicroStep`. -/
def execPut (b : Byte) (s : State) : Host.Outcome State Fault Refusal :=
  .next (s.setPend [.putByte b]).finishIfDone

/-- PUTT: CR LF for LF, else as PUT (R79 to R81). -/
def execPutt (b : Byte) (s : State) : Host.Outcome State Fault Refusal :=
  .next (s.setPend (stringPath b)).finishIfDone

/-- GET: the next unread RX byte, or NO_DATA (R85 to R87). An index at or above C_RX does not exist (20_memory.md
R44; assumption 8). -/
def execGet (s : State) : Host.Outcome State Fault Refusal :=
  if s.rxqCursor.toNat < s.rxqCount.toNat then
    if s.rxqCursor.toNat < s.cfg.cRx then
      .next (((s.setRes (getResult (s.byteAt .rx s.rxqCursor.toNat))).setRxq s.rxqCount
        (s.rxqCursor + 1#7)).finishIfDone)
    else .fault (.bufferIndex .rx s.rxqCursor.toNat)
  else .next (s.setRes s.cfg.noData).finishIfDone

end Sys2Proof.Machine
end

