-- ==== Sys2Proof/Syntax.lean ====
section
/-! DEFINITION. The six commands of 30_encoding.md R60, one constructor per row of spec/opcode_table.json, with the
operands of the formats B, Z, L and T (R61). -/

namespace Sys2Proof

/-- A command, decoded. -/
inductive Instr where
  /-- PUT: append BYTE to the TX queue (40_queue_ops.md R76). -/
  | put (byte : Byte)
  /-- PUTT: put BYTE through the string path (40_queue_ops.md R79). -/
  | putt (byte : Byte)
  /-- GET: take the next unread RX byte (40_queue_ops.md R85). -/
  | get
  /-- PKT: take one OUT packet of LEN bytes (42_accountant.md R105). -/
  | pkt (len : BitVec 12)
  /-- CONFIG: re-initialise transfer accounting (42_accountant.md R112). -/
  | config
  /-- TICK: the periodic interrupt with ENV's answers R, A and N (41_tick.md R90). -/
  | tick (txReady rxAvail : Bool) (batchLen : BitVec 7)
deriving DecidableEq, Repr

end Sys2Proof
end

