-- ==== Sys2Proof/WellFormed.lean ====
section
/-! DEFINITION. Which commands the encoding admits: the constraints on TICK's fields (30_encoding.md R69, R71). -/

namespace Sys2Proof

/-- The port a command arrives on (30_encoding.md R59, R60). -/
def Instr.port : Instr → Port
  | .put _ => .command
  | .putt _ => .command
  | .get => .command
  | .pkt _ => .command
  | .config => .command
  | .tick _ _ _ => .tick

/-- The commands that have a word when the RX queue holds `cRx` bytes: with A = 0 the batch length is 0, and no batch
is longer than C_RX (30_encoding.md R69). Every value of BYTE and LEN is legal (R67, R71). -/
def Instr.wf (cRx : Nat) : Instr → Bool
  | .put _ => true
  | .putt _ => true
  | .get => true
  | .pkt _ => true
  | .config => true
  | .tick _ rxAvail batchLen => (rxAvail || batchLen == 0#7) && decide (batchLen.toNat ≤ cRx)

end Sys2Proof
end

