-- ==== Sys2Proof/Decode.lean ====
section
/-! DEFINITION. Command words: the decoder, total on every word and rejecting by name, and the encoder
(spec/30_encoding.md). -/

namespace Sys2Proof

/-- OP = `w[15:12]` (R59). -/
def opcodeOf (w : Word) : BitVec 4 := w.extractLsb' 12 4

/-- The operand field `w[11:0]` (R59). -/
def operandOf (w : Word) : BitVec 12 := w.extractLsb' 0 12

/-- The port an opcode belongs to, none for a reserved opcode (R59, R60, R70). -/
def portOf (op : BitVec 4) : Option Port :=
  match op.toNat with
  | 1 => some .command
  | 2 => some .command
  | 3 => some .command
  | 4 => some .command
  | 5 => some .command
  | 8 => some .tick
  | _ => none

/-- What is wrong with a TICK's fields: N needs A = 1, and N is at most C_RX (R69, R71, 41_tick.md R93). -/
def tickReject (cRx : Nat) (rxAvail : Bool) (batchLen : BitVec 7) : Option Reject :=
  if rxAvail = false ∧ batchLen ≠ 0#7 then some .batchWithoutData
  else if cRx < batchLen.toNat then some .batchTooLong
  else none

/-- Format B: bits [11:8] are zero and BYTE is `w[7:0]` (R61, R62). -/
def decodeB (mk : Byte → Instr) (w : Word) : Except Reject Instr :=
  if w.extractLsb' 8 4 = 0#4 then .ok (mk (w.extractLsb' 0 8)) else .error .nonzeroField

/-- Format Z: bits [11:0] are zero (R61, R63). -/
def decodeZ (i : Instr) (w : Word) : Except Reject Instr :=
  if operandOf w = 0#12 then .ok i else .error .nonzeroField

/-- Format L: LEN is `w[11:0]`, every value legal (R61, R67). -/
def decodeL (mk : BitVec 12 → Instr) (w : Word) : Except Reject Instr := .ok (mk (operandOf w))

/-- Format T: R, A and N with bits [9:7] zero, under the constraints of R69 (R61, R71). -/
def decodeT (cRx : Nat) (mk : Bool → Bool → BitVec 7 → Instr) (w : Word) : Except Reject Instr :=
  if w.extractLsb' 7 3 = 0#3 then
    match tickReject cRx (w.getLsbD 10) (w.extractLsb' 0 7) with
    | some why => .error why
    | none => .ok (mk (w.getLsbD 11) (w.getLsbD 10) (w.extractLsb' 0 7))
  else .error .nonzeroField

/-- A word of an assigned opcode, read by its format (R60, R72). -/
def decodeFormat (cRx : Nat) (w : Word) : Except Reject Instr :=
  match (opcodeOf w).toNat with
  | 1 => decodeB .put w
  | 2 => decodeB .putt w
  | 3 => decodeZ .get w
  | 4 => decodeL .pkt w
  | 5 => decodeZ .config w
  | 8 => decodeT cRx .tick w
  | _ => .error .reservedOpcode

/-- What a word on a port means, when the RX queue holds `cRx` bytes: the opcode alone selects, then R71 checks
(R70 to R72). -/
def decode (cRx : Nat) (p : Port) (w : Word) : Except Reject Instr :=
  match portOf (opcodeOf w) with
  | none => .error .reservedOpcode
  | some q => if q = p then decodeFormat cRx w else .error .wrongPort

/-- The word of a command (R64 to R69). -/
def encode : Instr → Word
  | .put b => 0x1000#16 ||| b.setWidth 16
  | .putt b => 0x2000#16 ||| b.setWidth 16
  | .get => 0x3000#16
  | .pkt len => 0x4000#16 ||| len.setWidth 16
  | .config => 0x5000#16
  | .tick r a n =>
      0x8000#16 ||| ((BitVec.ofBool r).setWidth 16 <<< 11) ||| ((BitVec.ofBool a).setWidth 16 <<< 10) |||
        n.setWidth 16

/-- The match and mask of each row of spec/opcode_table.json (R64 to R69). -/
def Instr.row : Instr → Word × Word
  | .put _ => (0x1000#16, 0xFF00#16)
  | .putt _ => (0x2000#16, 0xFF00#16)
  | .get => (0x3000#16, 0xFFFF#16)
  | .pkt _ => (0x4000#16, 0xF000#16)
  | .config => (0x5000#16, 0xFFFF#16)
  | .tick _ _ _ => (0x8000#16, 0xF380#16)

/-- What the decoder reads from a table row's bits, at the default C_RX. A table word arrives on the port its opcode
belongs to: no bit of the word says which (R59; assumption 16). -/
def decodeTableWord (nbits w : Nat) : Option Instr :=
  if w < 2 ^ nbits ∧ w < 2 ^ 16 then
    let word := BitVec.ofNat 16 w
    match decode Config.default.cRx ((portOf (opcodeOf word)).getD .command) word with
    | .ok i => some i
    | .error _ => none
  else none

end Sys2Proof
end

