-- ==== Sys2Proof/Machine/Tick.lean ====
section
/-! DEFINITION. The interrupt tick (spec/41_tick.md): the TX side and the RX side, and TICK over both. Taking a tick
saves no state, changes no mode and goes to no vector (60_exceptions.md R132). -/

namespace Sys2Proof.Machine

/-- Flush: the whole queue to the transport as one packet (R95). An index at or above C_TX does not exist (20_memory.md
R43; assumption 8). -/
def flushTx (s : State) : Except Fault State :=
  if s.txqCount.toNat ≤ s.cfg.cTx then
    .ok ((s.record (.txPacket s.txBatch)).setTxq 0#7 0#3 s.flushZlp)
  else .error (.bufferIndex .tx s.cfg.cTx)

/-- Discard: the whole batch dropped and recorded (R96). -/
def discardTx (s : State) : State :=
  (s.record (.txDiscard s.txqCount.toNat)).setTxq 0#7 0#3 s.discardZlp

/-- Reject: count one more failure, and discard when the new count exceeds MAX_REJECT (R96; C1; assumption 11). -/
def rejectTx (s : State) : State :=
  if s.cfg.maxReject < s.txqReject.toNat + 1 then discardTx s
  else s.setTxq s.txqCount (BitVec.ofNat 3 (s.txqReject.toNat + 1)) s.txqZlp

/-- The TX side, with ENV's `tx_ready` (R90 (a), R94). -/
def txSide (txReady : Bool) (s : State) : Except Fault State :=
  if s.txPending then (if txReady then flushTx s else .ok (rejectTx s)) else .ok s

/-- Refill: the batch into `rxbuf` from index 0, the cursor back to 0 (R98, R101). -/
def refillRx (n : BitVec 7) (s : State) : State :=
  (s.store .rx 0 (s.batchBytes n.toNat)).setRxq n 0#7

/-- The RX side, with ENV's `rx_avail` and batch length (R90 (b), R98 to R101). -/
def rxSide (rxAvail : Bool) (n : BitVec 7) (s : State) : State :=
  if s.rxDrained && rxAvail then refillRx n s else s

/-- TICK: the TX side, then the RX side, in one step (R90, R91); ENV's answer is then spent (R92). A tick whose fields
break R93 is refused. -/
def execTick (txReady rxAvail : Bool) (n : BitVec 7) (s : State) : Host.Outcome State Fault Refusal :=
  match tickReject s.cfg.cRx rxAvail n with
  | some why => .refused (.word why)
  | none =>
    match txSide txReady s with
    | .error f => .fault f
    | .ok t => .next (rxSide rxAvail n t).countDraw

end Sys2Proof.Machine
end

