-- ==== Sys2Proof/Machine/Dispatch.lean ====
section
/-! DEFINITION. One arm per command, each a direct call of its meaning. -/

namespace Sys2Proof.Machine

def exec (i : Instr) (s : State) : Host.Outcome State Fault Refusal :=
  match i with
  | .put b => Sys2Proof.Machine.execPut b s
  | .putt b => Sys2Proof.Machine.execPutt b s
  | .get => Sys2Proof.Machine.execGet s
  | .pkt len => Sys2Proof.Machine.execPkt len s
  | .config => Sys2Proof.Machine.execConfig s
  | .tick r a n => Sys2Proof.Machine.execTick r a n s

end Sys2Proof.Machine
end

