-- ==== Sys2Proof/Machine/Agents.lean ====
section
/-! DEFINITION. One step of each agent: MAIN on the command port (40_queue_ops.md R75) and TICK on the tick port
(10_state.md R38). -/

namespace Sys2Proof.Machine

/-- MAIN issues a command word: refused by R70 or R71, else its issue action with its packet bytes on the OUT packet
lane (R75, 10_state.md R40). -/
def issueCommand (c : Command) (s : State) : Host.Outcome State Fault Refusal :=
  match decode s.cfg.cRx .command c.word with
  | .error why => .refused (.word why)
  | .ok i => exec i (s.setOutLane c.lane)

/-- A MAIN step: the head of `main.pend`, or else the command at `ip`; where MAIN has issued none it takes no step
(R75; assumption 4). -/
def mainStep (s : State) : Host.Outcome State Fault Refusal :=
  if s.mainPend = [] then
    match s.cmds[s.ip]? with
    | none => .next s
    | some c => issueCommand c s
  else .next (runMicroStep s)

/-- A TICK step: the word on the tick port, with its batch bytes on the RX data lane (10_state.md R38). -/
def tickStep (w : Word) (lane : List Byte) (s : State) : Host.Outcome State Fault Refusal :=
  match decode s.cfg.cRx .tick w with
  | .error why => .refused (.word why)
  | .ok i => exec i (s.setRxLane lane)

/-- One turn of the interleaving (00_scope.md R18). -/
def takeTurn (t : Turn) (s : State) : Host.Outcome State Fault Refusal :=
  match t with
  | .main => mainStep s
  | .tick w lane => tickStep w lane s
  | .rst cmds => .next (s.assertRst cmds)

end Sys2Proof.Machine
end

