-- ==== Sys2Proof/Machine/Step.lean ====
section
/-! DEFINITION. One step of the machine, and how a word is placed so that the next step runs it. -/

namespace Sys2Proof.Machine

/-- One step: the first of `turns` is taken; with none left nothing happens (00_scope.md R18; assumptions 3 and 4). -/
def step (s : State) : Host.Outcome State Fault Refusal :=
  match s.turns with
  | [] => .next s
  | t :: rest => takeTurn t (s.setTurns rest)

/-- `cmds` with `c` at index `n`, MAIN's earlier commands padded with reserved words where it has none. -/
def placeAt (cmds : List Command) (n : Nat) (c : Command) : List Command :=
  cmds.take n ++ List.replicate (n - cmds.length) ⟨0#16, []⟩ ++ c :: cmds.drop (n + 1)

/-- `s` with the word `w` placed on the port of its opcode, and that agent stepping next: a TICK word at the head of
`turns`, any other word at `ip` of the command sequence with MAIN ready to issue (assumption 5). -/
def State.withFetchWord (s : State) (nbits w : Nat) : State :=
  let word := BitVec.ofNat 16 (w % 2 ^ nbits)
  match portOf (opcodeOf word) with
  | some .tick => { s with turns := .tick word [] :: s.turns }
  | _ => { s with turns := .main :: s.turns, mainPend := [], cmds := placeAt s.cmds s.ip ⟨word, []⟩ }

end Sys2Proof.Machine
end

