-- ==== Sys2Proof/Machine/Asm.lean ====
section
/-! DEFINITION. The assembler syntax of 30_encoding.md R73 and the pseudo-instructions of R74: what a line of a listing
stands for. A line that is not in that syntax stands for nothing (assumption 22). -/

namespace Sys2Proof.Machine

/-- One step of a listing: a command of MAIN, or a tick (30_encoding.md R73). -/
inductive ListingStep where
  | command (c : Command)
  | tick (word : Word) (lane : List Byte)
deriving DecidableEq, Repr

/-- The lexical elements of a line. -/
inductive Token where
  | word (cs : List Char)
  | char (b : Byte)
  | text (bs : List Byte)
  | lbracket
  | rbracket
  | comma
  /-- `;` and the rest of the line. -/
  | comment (cs : List Char)
deriving DecidableEq, Repr

/-- Where the lexer stands: between tokens, in a word, in a quoted text, or after its backslash. What has been read is
kept newest first. -/
inductive LexMode where
  | gap
  | word (rev : List Char)
  | text (rev : List Byte)
  | escape (rev : List Byte)
deriving DecidableEq, Repr

/-- The ASCII code of a printable character (00_scope.md R15; assumption 17). -/
def charCode (c : Char) : Option Byte :=
  if 0x20 ≤ c.toNat ∧ c.toNat ≤ 0x7E then some (BitVec.ofNat 8 c.toNat) else none

/-- The character a backslash makes of its follower: `n` and `r` of 00_scope.md R15, and quoting of the delimiters. -/
def escapeCode (c : Char) : Option Byte :=
  if c = 'n' then some 0x0A#8 else if c = 'r' then some 0x0D#8
  else if c = '\\' ∨ c = '\'' ∨ c = '"' then charCode c else none

/-- The token that the lexer's mode completes, if any. -/
def LexMode.flush : LexMode → List Token
  | .word rev => [.word rev.reverse]
  | _ => []

/-- The tokens of a line; none where a quotation is not closed or holds a character without a code. -/
def lex : LexMode → List Char → Option (List Token)
  | .text _, [] => none
  | .escape _, [] => none
  | m, [] => some m.flush
  | .text rev, '"' :: cs => (lex .gap cs).map (.text rev.reverse :: ·)
  | .text rev, '\\' :: cs => lex (.escape rev) cs
  | .text rev, c :: cs => match charCode c with
    | some b => lex (.text (b :: rev)) cs
    | none => none
  | .escape rev, c :: cs => match escapeCode c with
    | some b => lex (.text (b :: rev)) cs
    | none => none
  | m, ';' :: cs => some (m.flush ++ [.comment cs])
  | m, '"' :: cs => (lex (.text []) cs).map (m.flush ++ ·)
  | m, '[' :: cs => (lex .gap cs).map (m.flush ++ .lbracket :: ·)
  | m, ']' :: cs => (lex .gap cs).map (m.flush ++ .rbracket :: ·)
  | m, ',' :: cs => (lex .gap cs).map (m.flush ++ .comma :: ·)
  | m, '\'' :: '\\' :: c :: '\'' :: cs => match escapeCode c with
    | some b => (lex .gap cs).map (m.flush ++ .char b :: ·)
    | none => none
  | m, '\'' :: c :: '\'' :: cs => match charCode c with
    | some b => (lex .gap cs).map (m.flush ++ .char b :: ·)
    | none => none
  | m, c :: cs =>
    if c = ' ' ∨ c = '\t' then (lex .gap cs).map (m.flush ++ ·)
    else match m with
      | .word rev => lex (.word (c :: rev)) cs
      | _ => lex (.word [c]) cs

/-- A decimal or hexadecimal digit. -/
def digitValue (c : Char) : Option Nat :=
  if '0'.toNat ≤ c.toNat ∧ c.toNat ≤ '9'.toNat then some (c.toNat - '0'.toNat)
  else if 'a'.toNat ≤ c.toNat ∧ c.toNat ≤ 'f'.toNat then some (c.toNat - 'a'.toNat + 10)
  else if 'A'.toNat ≤ c.toNat ∧ c.toNat ≤ 'F'.toNat then some (c.toNat - 'A'.toNat + 10)
  else none

/-- The digits of `cs` in a base, continuing from `acc`. -/
def digitsValue (base : Nat) : Nat → List Char → Option Nat
  | acc, [] => some acc
  | acc, c :: cs => match digitValue c with
    | some d => if d < base then digitsValue base (acc * base + d) cs else none
    | none => none

/-- A number in decimal or `0x` hex, as R73 gives it for `<byte>`. R73 gives no number form for PKT's `<len>`, nor R74
for PUTDEC's `<v>`: that they take the same form is the model's choice (DESIGN CHOICE, assumption 22). -/
def numberValue : List Char → Option Nat
  | [] => none
  | '0' :: 'x' :: [] => none
  | '0' :: 'x' :: cs => digitsValue 16 0 cs
  | cs => digitsValue 10 0 cs

/-- `<byte>`: a number 0 to 255, or a character constant (30_encoding.md R73). -/
def byteValue : Token → Option Byte
  | .char b => some b
  | .word cs => match numberValue cs with
    | some n => if n < 256 then some (BitVec.ofNat 8 n) else none
    | none => none
  | _ => none

/-- The bytes up to a closing bracket, separated by commas or spaces, and the tokens after it. -/
def bytesUpToBracket : List Token → Option (List Byte × List Token)
  | .rbracket :: ts => some ([], ts)
  | .comma :: ts => bytesUpToBracket ts
  | t :: ts => match byteValue t, bytesUpToBracket ts with
    | some b, some (bs, rest) => some (b :: bs, rest)
    | _, _ => none
  | [] => none

/-- Nothing but a comment is left on the line. -/
def isLineEnd : List Token → Bool
  | [] => true
  | [.comment _] => true
  | _ => false

/-- The payload bytes that a PKT line's comment lists: `; payload [..]` (30_encoding.md R73). -/
def payloadOf : List Token → List Byte
  | [.comment cs] => match lex .gap cs with
    | some (.word ['p', 'a', 'y', 'l', 'o', 'a', 'd'] :: .lbracket :: ts) =>
      ((bytesUpToBracket ts).map Prod.fst).getD []
    | _ => []
  | _ => []

/-- A command of MAIN as a listing step. -/
def commandStep (i : Instr) (lane : List Byte) : ListingStep := .command ⟨encode i, lane⟩

/-- A tick as a listing step: N is the number of batch bytes listed (30_encoding.md R73), at most what its 7-bit field
holds (R69). -/
def tickStepOf (txReady rxAvail : Bool) (bs : List Byte) : Option ListingStep :=
  if bs.length < 128 then some (.tick (encode (.tick txReady rxAvail (BitVec.ofNat 7 bs.length))) bs) else none

/-- `PUTS "<text>"`: one PUTT per character, in order (30_encoding.md R74). -/
def putsExpansion (text : List Byte) : List Instr := text.map .putt

/-- `PUTDEC <v>`: one PUTT per decimal digit (30_encoding.md R74, 42_accountant.md R115). -/
def putdecExpansion (v : Nat) : List Instr := putsExpansion (dec v)

/-- The value of the flag `<name>=<0|1>` (30_encoding.md R73). -/
def flagValue (name : Char) (cs : List Char) : Option Bool :=
  if cs = [name, '=', '0'] then some false else if cs = [name, '=', '1'] then some true else none

/-- The steps a line's tokens stand for (30_encoding.md R73, R74). -/
def parseTokens : List Token → Option (List ListingStep)
  | [] => some []
  | [.comment _] => some []
  | .word ['G', 'E', 'T'] :: ts => if isLineEnd ts then some [commandStep .get []] else none
  | .word ['C', 'O', 'N', 'F', 'I', 'G'] :: ts => if isLineEnd ts then some [commandStep .config []] else none
  | .word ['P', 'U', 'T'] :: t :: ts => match byteValue t with
    | some b => if isLineEnd ts then some [commandStep (.put b) []] else none
    | none => none
  | .word ['P', 'U', 'T', 'T'] :: t :: ts => match byteValue t with
    | some b => if isLineEnd ts then some [commandStep (.putt b) []] else none
    | none => none
  | .word ['P', 'K', 'T'] :: .word cs :: ts => match numberValue cs with
    | some n =>
      if n < 4096 ∧ isLineEnd ts = true then some [commandStep (.pkt (BitVec.ofNat 12 n)) (payloadOf ts)] else none
    | none => none
  | .word ['P', 'U', 'T', 'S'] :: .text bs :: ts =>
    if isLineEnd ts then some ((putsExpansion bs).map (commandStep · [])) else none
  | .word ['P', 'U', 'T', 'D', 'E', 'C'] :: .word cs :: ts => match numberValue cs with
    | some v => if isLineEnd ts then some ((putdecExpansion v).map (commandStep · [])) else none
    | none => none
  | .word ['T', 'I', 'C', 'K'] :: .word r :: .word a :: ts =>
    match flagValue 'R' r, flagValue 'A' a with
    | some r, some a => match ts with
      | .lbracket :: rest => match bytesUpToBracket rest with
        | some (bs, after) => if isLineEnd after then (tickStepOf r a bs).map ([·]) else none
        | none => none
      | _ => if isLineEnd ts then (tickStepOf r a []).map ([·]) else none
    | _, _ => none
  | _ => none

/-- What one line of a listing stands for, none where it is not in the syntax. -/
def parseLine (line : List Char) : Option (List ListingStep) := (lex .gap line).bind parseTokens

/-- A whole listing: the steps of its lines in order (30_encoding.md R73). -/
def parseListing : List (List Char) → Option (List ListingStep)
  | [] => some []
  | l :: ls => match parseLine l, parseListing ls with
    | some a, some b => some (a ++ b)
    | _, _ => none

/-- The command sequence of a listing, as the command port carries it (10_state.md R37). -/
def listingCommands : List ListingStep → List Command
  | [] => []
  | .command c :: l => c :: listingCommands l
  | .tick _ _ :: l => listingCommands l

end Sys2Proof.Machine
end

