-- ==== Sys2Proof/Safety.lean ====
section
/-! DEFINITION. What a sound state is: the invariants of 10_state.md R36 with the ranges of R20, R29 and R30 and the form of
the buffers; and the views of a state that claims compare. -/

namespace Sys2Proof.Machine

/-- R36 item 1: `0 <= rxq.cursor <= rxq.count <= C_RX`. -/
abbrev State.RxInv (s : State) : Prop := s.rxqCursor.toNat ≤ s.rxqCount.toNat ∧ s.rxqCount.toNat ≤ s.cfg.cRx

/-- R36 items 2 to 4: `txq.count <= C_TX`, `txq.reject <= MAX_REJECT`, and a running reject count only with TX pending. -/
abbrev State.TxInv (s : State) : Prop :=
  s.txqCount.toNat ≤ s.cfg.cTx ∧ s.txqReject.toNat ≤ s.cfg.maxReject ∧
    (0 < s.txqReject.toNat → 0 < s.txqCount.toNat ∨ s.txqZlp = true)

/-- The accountant's counters keep their widths (10_state.md R29, R30). -/
abbrev State.AccInv (s : State) : Prop := s.accRxSize < 2 ^ s.cfg.wSize ∧ s.accRxCount < 2 ^ s.cfg.wXfer

/-- `res`, once written, is a zero-extended byte or NO_DATA (10_state.md R20). -/
abbrev State.ResInv (s : State) : Prop := s.resWritten = true → s.res.toNat < 0x100 ∨ s.res = s.cfg.noData

/-- Every buffer is in its canonical form and lists no index at or above its capacity (20_memory.md R43 to R45). -/
abbrev State.BufInv (s : State) : Prop :=
  (Memory.Wf s.txbuf ∧ Memory.Below s.txbuf s.cfg.cTx) ∧ (Memory.Wf s.rxbuf ∧ Memory.Below s.rxbuf s.cfg.cRx) ∧
    (Memory.Wf s.pktbuf ∧ Memory.Below s.pktbuf s.cfg.rxbufCap)

/-- The bytes a flush or a GET may read have been written: no unspecified byte is ever observed (10_state.md R22, R26). -/
abbrev State.WrittenInv (s : State) : Prop :=
  (∀ i < s.txqCount.toNat, (Memory.lookup s.txbuf i).isSome = true) ∧
    (∀ i < s.rxqCount.toNat, (Memory.lookup s.rxbuf i).isSome = true)

/-- What holds between any two steps of a block with legal parameters. -/
abbrev State.Inv (s : State) : Prop :=
  s.cfg.Wf ∧ s.RxInv ∧ s.TxInv ∧ s.AccInv ∧ s.ResInv ∧ s.BufInv ∧ s.WrittenInv

/-- The bytes the TX transport has received, in order (10_state.md R39). -/
def State.sentBytes (s : State) : List Byte := (txPackets s.hist).flatten

/-- The bytes that have left the TX queue and those still pending, in order (20_memory.md R53). -/
def State.txStream (s : State) : List Byte := s.sentBytes ++ s.txBatch

/-- The state without the packet buffer and the bytes on the OUT packet lane, which no rule reads (10_state.md R31). -/
def State.withoutPayload (s : State) : State := { s with pktbuf := [], outLane := [] }

/-- An outcome seen through `f`: two runs are compared by it. -/
def viewOutcome (f : State → State) : Host.Outcome State Fault Refusal → Host.Outcome State Fault Refusal
  | .next s => .next (f s)
  | .fault e => .fault e
  | .refused r => .refused r

/-- The meanings of a list of commands one after another, stopping at the first fault or refusal. -/
def execAll : List Instr → State → Host.Outcome State Fault Refusal
  | [], s => .next s
  | i :: is, s =>
    match exec i s with
    | .next t => execAll is t
    | .fault e => .fault e
    | .refused r => .refused r

end Sys2Proof.Machine
end

