-- ==== Sys2Proof/Certificates/Slice0/Obligations.lean ====
section
/-! DEFINITION. The statements for the provers, from the numbered rules of spec/. -/

open Sys2Proof Sys2Proof.Machine

/-! ### The command words (30_encoding.md) -/

/-- 30_encoding.md section 2: the word of every command the encoding admits decodes to it, on its own port. -/
def Obligations.DecodeOfEncodeIsTheCommand : Prop :=
  ∀ (cRx : Nat) (i : Instr), i.wf cRx = true → decode cRx i.port (encode i) = .ok i

/-- 30_encoding.md section 2: a word that decodes is the word of its command, on that command's port, and the command
is one the encoding admits; so no bit of an accepted word is dropped. -/
def Obligations.EncodeOfDecodeIsTheWord : Prop :=
  ∀ (cRx : Nat) (p : Port) (w : Word) (i : Instr), decode cRx p w = .ok i →
    encode i = w ∧ i.port = p ∧ i.wf cRx = true

/-- R64, R65, R66, R68: the words of PUT, PUTT, GET and CONFIG as numbers, their match and mask, and the examples. -/
def Obligations.CommandWordsMatchTheirRows : Prop :=
  ∀ (cRx : Nat) (w : Word) (b : Byte),
    (encode (.put b)).toNat = 0x1000 + b.toNat ∧
    (encode (.putt b)).toNat = 0x2000 + b.toNat ∧
    encode .get = 0x3000#16 ∧ encode .config = 0x5000#16 ∧
    (w &&& 0xFF00#16 = 0x1000#16 ↔ decode cRx .command w = .ok (.put (w.extractLsb' 0 8))) ∧
    (w &&& 0xFF00#16 = 0x2000#16 ↔ decode cRx .command w = .ok (.putt (w.extractLsb' 0 8))) ∧
    (w &&& 0xFFFF#16 = 0x3000#16 ↔ decode cRx .command w = .ok .get) ∧
    (w &&& 0xFFFF#16 = 0x5000#16 ↔ decode cRx .command w = .ok .config) ∧
    encode (.put 0x61#8) = 0x1061#16 ∧ encode (.putt 0x0A#8) = 0x200A#16

/-- 30_encoding.md R67 and R69 (their encodings): PKT's word carries any length, and TICK's word carries R, A and N at
bits 11, 10 and 6:0 with bits 9:7 zero, N within C_RX, and no batch without data. -/
def Obligations.PktAndTickWordsMatchTheirRows : Prop :=
  ∀ (cRx : Nat) (w : Word) (len : BitVec 12) (r a : Bool) (n : BitVec 7),
    (encode (.pkt len)).toNat = 0x4000 + len.toNat ∧
    (encode (.tick r a n)).toNat = 0x8000 + r.toNat * 2048 + a.toNat * 1024 + n.toNat ∧
    (w &&& 0xF000#16 = 0x4000#16 ↔ decode cRx .command w = .ok (.pkt (w.extractLsb' 0 12))) ∧
    ((w &&& 0xF380#16 = 0x8000#16 ∧ (w.getLsbD 10 = false → w.extractLsb' 0 7 = 0#7) ∧
        (w.extractLsb' 0 7).toNat ≤ cRx) ↔
      decode cRx .tick w = .ok (.tick (w.getLsbD 11) (w.getLsbD 10) (w.extractLsb' 0 7)))

/-- 95_test_vectors.md section 2: words written out from the encodings, decoded. -/
def Obligations.SampleWordsDecode : Prop :=
  decode 64 .command 0x1061#16 = .ok (.put 0x61#8) ∧ decode 64 .command 0x200A#16 = .ok (.putt 0x0A#8) ∧
  decode 64 .command 0x3000#16 = .ok .get ∧ decode 64 .command 0x4FFF#16 = .ok (.pkt 4095#12) ∧
  decode 64 .command 0x5000#16 = .ok .config ∧ decode 64 .tick 0x8C02#16 = .ok (.tick true true 2#7) ∧
  decode 64 .tick 0x8441#16 = .error .batchTooLong ∧ decode 64 .tick 0x8001#16 = .error .batchWithoutData

/-- R70: a word of a reserved opcode is refused on either port, and a word on the wrong port is refused; 0x0000 is
reserved. -/
def Obligations.ReservedAndMisroutedWordsAreRefused : Prop :=
  ∀ (s : State) (w : Word) (lane : List Byte) (rest : List Turn),
    (w.toNat / 4096 ∈ [0, 6, 7, 9, 10, 11, 12, 13, 14, 15] →
      issueCommand ⟨w, lane⟩ s = .refused (.word .reservedOpcode) ∧
      step { s with turns := .tick w lane :: rest } = .refused (.word .reservedOpcode)) ∧
    (w.toNat / 4096 = 8 → issueCommand ⟨w, lane⟩ s = .refused (.word .wrongPort)) ∧
    (w.toNat / 4096 ∈ [1, 2, 3, 4, 5] →
      step { s with turns := .tick w lane :: rest } = .refused (.word .wrongPort)) ∧
    (s.mainPend = [] → s.cmds[s.ip]? = some ⟨w, lane⟩ →
      step { s with turns := .main :: rest } = issueCommand ⟨w, lane⟩ { s with turns := rest }) ∧
    issueCommand ⟨0x0000#16, lane⟩ s = .refused (.word .reservedOpcode)

/-- 30_encoding.md section 3: a word of an assigned opcode on its port is refused in exactly the three cases of R71,
by name. Which name a word gets that breaks several of them (a field before missing data before the length) is the
model's choice (assumption 14). -/
def Obligations.MalformedWordsAreRefusedExactly : Prop :=
  ∀ (cRx : Nat) (p : Port) (w : Word),
    (w.toNat / 4096 ∈ [1, 2, 3, 4, 5] ∧ p = .command) ∨ (w.toNat / 4096 = 8 ∧ p = .tick) →
      (decode cRx p w = .error .nonzeroField ↔
        (w.toNat / 4096 ∈ [1, 2] ∧ w.toNat / 256 % 16 ≠ 0) ∨ (w.toNat / 4096 ∈ [3, 5] ∧ w.toNat % 4096 ≠ 0) ∨
          (w.toNat / 4096 = 8 ∧ w.toNat / 128 % 8 ≠ 0)) ∧
      (decode cRx p w = .error .batchWithoutData ↔
        w.toNat / 4096 = 8 ∧ w.toNat / 128 % 8 = 0 ∧ w.toNat / 1024 % 2 = 0 ∧ w.toNat % 128 ≠ 0) ∧
      (decode cRx p w = .error .batchTooLong ↔
        w.toNat / 4096 = 8 ∧ w.toNat / 128 % 8 = 0 ∧ (w.toNat / 1024 % 2 = 0 → w.toNat % 128 = 0) ∧
          cRx < w.toNat % 128) ∧
      (∀ why, decode cRx p w = .error why →
        why = .nonzeroField ∨ why = .batchWithoutData ∨ why = .batchTooLong)

/-- R74, with R73: PUTS is one PUTT per character and PUTDEC one PUTT per decimal digit, in order, and what those PUTTs
load, command by command, is the text's `Text`. Every command that a line of the syntax stands for has a legal word. -/
def Obligations.PseudoInstructionsLoadTheirText : Prop :=
  (∀ (text : List Byte) (v : Nat) (s : State),
    putsExpansion text = text.map .putt ∧ putdecExpansion v = (dec v).map .putt ∧
    (putsExpansion text).flatMap (fun i => match exec i s with
      | .next t => t.mainPend
      | .fault _ => []
      | .refused _ => []) = textSteps text) ∧
  ∀ (cRx : Nat) (line : List Char) (steps : List ListingStep), parseLine line = some steps →
    ∀ c, .command c ∈ steps → ∃ i, decode cRx .command c.word = .ok i ∧ encode i = c.word

/-! ### Steps (40_queue_ops.md R75, 00_scope.md R17, R18) -/

/-- R75, issuing: with nothing pending, MAIN's step is the meaning of the command at `ip`, its packet bytes on the OUT
packet lane; around it the step only takes its turn off the list. -/
def Obligations.MainStepRunsTheCommandAtIp : Prop :=
  ∀ (s : State) (rest : List Turn) (c : Command) (i : Instr),
    s.turns = .main :: rest → s.mainPend = [] → s.cmds[s.ip]? = some c →
      decode s.cfg.cRx .command c.word = .ok i →
        step s = exec i { s with turns := rest, outLane := c.lane }

/-- R38, R90: a word on the tick port that decodes runs as its TICK, its batch bytes on the RX data lane. -/
def Obligations.TickPortStepRunsTheTick : Prop :=
  ∀ (s : State) (rest : List Turn) (w : Word) (lane : List Byte) (i : Instr),
    s.turns = .tick w lane :: rest → decode s.cfg.cRx .tick w = .ok i →
      step s = exec i { s with turns := rest, rxLane := lane }

/-- R75 and R76, the micro-step: with room the byte at the head of `main.pend` is appended, the list shortened, and
`ip` advanced when it is then empty; every other field and every other byte stays. On a full queue MAIN holds: nothing
but the turn is spent. -/
def Obligations.MicroStepAppendsOrHolds : Prop :=
  ∀ (s : State) (turns : List Turn) (b : Byte) (pend : List MicroStep),
    s.turns = .main :: turns → s.mainPend = .putByte b :: pend → s.cfg.cTx ≤ 127 →
      (s.txqCount.toNat < s.cfg.cTx → ∃ t, step s = .next t ∧
        t = { s with turns := turns, txbuf := t.txbuf, txqCount := t.txqCount, mainPend := pend, ip := t.ip } ∧
        t.txqCount.toNat = s.txqCount.toNat + 1 ∧ t.byteAt .tx s.txqCount.toNat = b ∧
        (∀ i, i ≠ s.txqCount.toNat → t.byteAt .tx i = s.byteAt .tx i) ∧
        (∀ x i, x ≠ .tx → t.byteAt x i = s.byteAt x i) ∧
        t.ip = if pend = [] then s.ip + 1 else s.ip) ∧
      (s.cfg.cTx ≤ s.txqCount.toNat → step s = .next { s with turns := turns })

/-- R77: a hold is lifted by a flush or a discard and by nothing else (a reset apart): from a full queue, a step either
leaves the queue full or records the flush or the discard that emptied it. -/
def Obligations.HoldIsLiftedOnlyByFlushOrDiscard : Prop :=
  ∀ (s t : State), s.txqCount.toNat = s.cfg.cTx → (∀ c rest, s.turns ≠ .rst c :: rest) → step s = .next t →
    (t.txqCount = s.txqCount ∧ t.hist.countP (fun e => e matches .txPacket _ | .txDiscard _) =
      s.hist.countP (fun e => e matches .txPacket _ | .txDiscard _)) ∨
    (t.txqCount = 0#7 ∧
      (t.hist = s.hist ++ [.txPacket s.txBatch] ∨ t.hist = s.hist ++ [.txDiscard s.txqCount.toNat]))

/-- R147, I16: if no tick comes, a put on a full queue holds for ever. -/
def Obligations.HoldNeverEndsWithoutTicks : Prop :=
  ∀ (n : Nat) (s : State) (m : MicroStep) (pend : List MicroStep) (rest : List Turn),
    s.mainPend = m :: pend → s.cfg.cTx ≤ s.txqCount.toNat → s.turns = List.replicate n .main ++ rest →
      Sys2Proof.core.run n s = .next { s with turns := rest }

/-- R147, the spec's own derivation from R95 and R96: once ticks come, a hold on a full queue ends within MAX_REJECT+1
of them, however MAIN's tries fall between them: some step before the ticks run out leaves the queue empty. -/
def Obligations.HoldEndsWithinMaxRejectPlusOneTicks : Prop :=
  ∀ (s : State) (turns rest : List Turn), s.Inv → s.txqCount.toNat = s.cfg.cTx → s.mainPend ≠ [] →
    s.turns = turns ++ rest →
    (∀ u ∈ turns, u = .main ∨ ∃ r a n lane, u = .tick (encode (.tick r a n)) lane ∧
      (Instr.tick r a n).wf s.cfg.cRx = true) →
    s.cfg.maxReject + 1 ≤ turns.countP (fun u => u matches .tick _ _) →
      ∃ (k : Nat) (t : State), k ≤ turns.length ∧ Sys2Proof.core.run k s = .next t ∧ t.txqCount = 0#7 ∧ t.mainPend = s.mainPend

/-- R127, R102: a step is refused only for the word it takes: a command word or a tick word that R70 or R71 refuses. -/
def Obligations.OnlyRefusedWordsRefuseAStep : Prop :=
  ∀ (s : State) (r : Refusal), step s = .refused r →
    (∃ rest c why, s.turns = .main :: rest ∧ s.mainPend = [] ∧ s.cmds[s.ip]? = some c ∧
      decode s.cfg.cRx .command c.word = .error why ∧ r = .word why) ∨
    (∃ rest w lane why, s.turns = .tick w lane :: rest ∧ decode s.cfg.cRx .tick w = .error why ∧ r = .word why)

/-! ### PUT and PUTT (40_queue_ops.md) -/

/-- R76, the issue action: PUT of any byte loads its one micro-step and changes nothing else. -/
def Obligations.PutLoadsOneMicroStep : Prop :=
  ∀ (s : State) (b : Byte), exec (.put b) s = .next { s with mainPend := [.putByte b] }

/-- R76: from a queue with room, PUT takes MAIN two steps, its issue and its put (assumption 10); then the byte stands
at index `txq.count`, the count is one higher, `ip` has advanced, and everything else (`txq.zlp` and `txq.reject` with
it) is as it was. On a full queue the second step holds. Any byte is stored unchanged, 0x0A too. -/
def Obligations.PutAppendsItsByteAndCompletes : Prop :=
  ∀ (s : State) (rest : List Turn) (b : Byte) (lane : List Byte),
    s.cfg.cTx ≤ 127 → s.turns = .main :: .main :: rest → s.mainPend = [] →
      s.cmds[s.ip]? = some ⟨encode (.put b), lane⟩ →
      (s.txqCount.toNat < s.cfg.cTx → ∃ t : State, Sys2Proof.core.run 2 s = .next t ∧
        t = { s with turns := rest, outLane := lane, txbuf := t.txbuf, txqCount := t.txqCount, ip := s.ip + 1 } ∧
        t.txqCount.toNat = s.txqCount.toNat + 1 ∧ t.txBatch = s.txBatch ++ [b] ∧
        t.byteAt .tx s.txqCount.toNat = b ∧
        (∀ i, i ≠ s.txqCount.toNat → t.byteAt .tx i = s.byteAt .tx i)) ∧
      (s.cfg.cTx ≤ s.txqCount.toNat → Sys2Proof.core.run 2 s =
        .next { s with turns := rest, outLane := lane, mainPend := [.putByte b] })

/-- R80: PUTT of any byte other than 0x0A is PUT of that byte. -/
def Obligations.PuttOfOtherBytesIsPut : Prop :=
  ∀ (s : State) (b : Byte), b ≠ 0x0A#8 →
    exec (.putt b) s = exec (.put b) s ∧ exec (.putt b) s = .next { s with mainPend := [.putByte b] }

/-- R79, R81, the issue action: PUTT of 0x0A loads the put of 0x0D and then the put of 0x0A. -/
def Obligations.PuttOfLineFeedLoadsCrThenLf : Prop :=
  ∀ (s : State), exec (.putt 0x0A#8) s = .next { s with mainPend := [.putByte 0x0D#8, .putByte 0x0A#8] }

/-- 40_queue_ops.md section 3: a PUTT of 0x0A on a queue with room for two takes three MAIN steps, its issue and two
puts (section 1; assumption 10); `ip` advances at the last, and CR and LF stand at the end of the batch. -/
def Obligations.PuttOfLineFeedSendsCrLf : Prop :=
  ∀ (s : State) (rest : List Turn) (lane : List Byte),
    s.cfg.cTx ≤ 127 → s.turns = .main :: .main :: .main :: rest → s.mainPend = [] →
      s.cmds[s.ip]? = some ⟨0x200A#16, lane⟩ → s.txqCount.toNat + 2 ≤ s.cfg.cTx →
      (∃ t : State, Sys2Proof.core.run 2 s = .next t ∧ t.mainPend = [.putByte 0x0A#8] ∧ t.ip = s.ip) ∧
      ∃ t : State, Sys2Proof.core.run 3 s = .next t ∧ t.mainPend = [] ∧ t.ip = s.ip + 1 ∧
        t.txBatch = s.txBatch ++ [0x0D#8, 0x0A#8] ∧ t.txqZlp = s.txqZlp ∧ t.txqReject = s.txqReject ∧ t.hist = s.hist

/-- R81: a tick may come between the CR and the LF of one PUTT, whose issue is a step of its own (assumption 10). With
one free place the CR goes in, the LF holds, the tick sends the CR in one packet, and the LF starts the next (V-PUTT-5).
-/
def Obligations.TickMaySplitCrFromLf : Prop :=
  ∀ (s : State) (rest : List Turn) (lane lane' : List Byte),
    s.cfg.cTx ≤ 127 → s.turns = .main :: .main :: .main :: .tick 0x8800#16 lane' :: .main :: rest → s.mainPend = [] →
      s.cmds[s.ip]? = some ⟨0x200A#16, lane⟩ → s.txqCount.toNat + 1 = s.cfg.cTx →
      ∃ t : State, Sys2Proof.core.run 5 s = .next t ∧ t.hist = s.hist ++ [.txPacket (s.txBatch ++ [0x0D#8])] ∧
        t.txBatch = [0x0A#8] ∧ t.txqZlp = true ∧ t.mainPend = [] ∧ t.ip = s.ip + 1

/-- R53, R76: PUTs with room enter the queue in the order they are issued. Each takes two MAIN steps, its issue and its
put (assumption 10). -/
def Obligations.PutsEnterTheQueueInOrder : Prop :=
  ∀ (bs : List Byte) (s : State) (rest : List Turn) (more : List Command),
    s.cfg.cTx ≤ 127 → s.mainPend = [] → s.txqCount.toNat + bs.length ≤ s.cfg.cTx →
      s.cmds.drop s.ip = bs.map (fun b => ⟨encode (.put b), []⟩) ++ more →
      s.turns = List.replicate (2 * bs.length) .main ++ rest →
      ∃ t : State, Sys2Proof.core.run (2 * bs.length) s = .next t ∧ t.txBatch = s.txBatch ++ bs ∧ t.mainPend = [] ∧
        t.txqCount.toNat = s.txqCount.toNat + bs.length ∧ t.ip = s.ip + bs.length ∧ t.turns = rest ∧
        t.hist = s.hist ∧ t.txqZlp = s.txqZlp ∧ t.txqReject = s.txqReject ∧ t.cfg = s.cfg

/-- R110: with room for them, the bytes a command has queued go in one at a time, in order, and `ip` advances only with
the last: after `k` steps, `k` below their number, the first `k` bytes are in the queue and `ip` has not moved. -/
def Obligations.PendingTextEntersTheQueueInOrder : Prop :=
  ∀ (bs : List Byte) (s : State) (rest : List Turn),
    bs ≠ [] → s.cfg.cTx ≤ 127 → s.mainPend = bs.map .putByte → s.txqCount.toNat + bs.length ≤ s.cfg.cTx →
      s.turns = List.replicate bs.length .main ++ rest →
      (∀ k < bs.length, ∃ t : State, Sys2Proof.core.run k s = .next t ∧ t.txBatch = s.txBatch ++ bs.take k ∧
        t.mainPend = (bs.drop k).map .putByte ∧ t.ip = s.ip) ∧
      ∃ t : State, Sys2Proof.core.run bs.length s = .next t ∧ t.txBatch = s.txBatch ++ bs ∧ t.ip = s.ip + 1 ∧
        t = { s with turns := rest, txbuf := t.txbuf, txqCount := t.txqCount, mainPend := [], ip := t.ip }

/-- Frame of the commands that store to no buffer as they are issued (R76, R79, R85, R112; the puts of PUT and PUTT are
later steps, assumption 10): every byte of every buffer
stays; PUT and PUTT change only `main.pend`, GET only `res`, the cursor and `ip`, CONFIG only the running size, the
history and `ip`. -/
def Obligations.NonStoringCommandsFrame : Prop :=
  ∀ (s t : State),
    (∀ i ∈ [Instr.get, .config], exec i s = .next t → ∀ x k, t.byteAt x k = s.byteAt x k) ∧
    (∀ b : Byte, exec (.put b) s = .next t ∨ exec (.putt b) s = .next t →
      t = { s with mainPend := t.mainPend } ∧ ∀ x k, t.byteAt x k = s.byteAt x k) ∧
    (exec .get s = .next t →
      t = { s with res := t.res, resWritten := true, rxqCursor := t.rxqCursor, ip := t.ip }) ∧
    (exec .config s = .next t →
      t = { s with accRxSize := 0, hist := s.hist ++ [.outEpEnable], ip := t.ip })

/-! ### GET (40_queue_ops.md) -/

/-- 40_queue_ops.md section 4 (R85, R87): GET's whole effect. With an unread byte, `res` is that byte, CR read as LF,
and the cursor advances; with none, `res` is NO_DATA and the cursor stays. Either way GET completes at once. -/
def Obligations.GetTakesTheNextUnreadByte : Prop :=
  ∀ (s : State), s.mainPend = [] → s.rxqCount.toNat ≤ s.cfg.cRx →
    (s.rxqCursor.toNat < s.rxqCount.toNat → exec .get s = .next { s with
      res := if s.byteAt .rx s.rxqCursor.toNat = 0x0D#8 then 0x000A#16
        else (s.byteAt .rx s.rxqCursor.toNat).setWidth 16
      resWritten := true, rxqCursor := s.rxqCursor + 1#7, ip := s.ip + 1 }) ∧
    (s.rxqCount.toNat ≤ s.rxqCursor.toNat → exec .get s = .next { s with
      res := s.cfg.noData, resWritten := true, ip := s.ip + 1 })

/-- R89, the spec's own derivation from R85 and R13: a data result has `res[15:8] = 0` and NO_DATA has not, so a data
result is never NO_DATA. -/
def Obligations.DataResultIsNeverNoData : Prop :=
  ∀ (s : State), s.cfg.Wf → s.rxqCount.toNat ≤ s.cfg.cRx → ∃ t, exec .get s = .next t ∧
    t.readRes = .next t.res ∧ (s.cfg.noData.extractLsb' 8 8 ≠ 0#8) ∧
    (s.rxqCursor.toNat < s.rxqCount.toNat → t.res.extractLsb' 8 8 = 0#8 ∧ t.res ≠ s.cfg.noData) ∧
    (s.rxqCount.toNat ≤ s.rxqCursor.toNat → t.res = s.cfg.noData)

/-- R46, and R53's own derivation: successive GETs return the batch in order, each byte by GET's translation. -/
def Obligations.GetsReturnTheBatchInOrder : Prop :=
  ∀ (n : Nat) (s : State), s.rxqCount.toNat ≤ s.cfg.cRx → s.rxqCursor.toNat + n < s.rxqCount.toNat →
    ∃ t, execAll (List.replicate (n + 1) .get) s = .next t ∧
      t.res = getResult (s.byteAt .rx (s.rxqCursor.toNat + n)) ∧
      t.rxqCursor.toNat = s.rxqCursor.toNat + n + 1 ∧ t.rxqCount = s.rxqCount

/-- R86: only 0x0D is translated, in the returned value only: the buffer keeps every byte. A CR LF pair on input reads
as two LFs (the spec's own derivation from R85). -/
def Obligations.CrLfPairReadsAsTwoLineFeeds : Prop :=
  (∀ (s : State) (b : Byte), s.rxqCursor.toNat < s.rxqCount.toNat → s.rxqCount.toNat ≤ s.cfg.cRx →
    s.byteAt .rx s.rxqCursor.toNat = b → ∃ t, exec .get s = .next t ∧ (∀ i, t.byteAt .rx i = s.byteAt .rx i) ∧
      (b = 0x0D#8 → t.res = 0x000A#16) ∧ (b ≠ 0x0D#8 → t.res.toNat = b.toNat)) ∧
  ∀ (s : State), s.rxqCount.toNat ≤ s.cfg.cRx → s.rxqCursor.toNat + 2 ≤ s.rxqCount.toNat →
    s.byteAt .rx s.rxqCursor.toNat = 0x0D#8 → s.byteAt .rx (s.rxqCursor.toNat + 1) = 0x0A#8 →
    ∃ t u, exec .get s = .next t ∧ t.res = 0x000A#16 ∧ t.byteAt .rx s.rxqCursor.toNat = 0x0D#8 ∧
      exec .get t = .next u ∧ u.res = 0x000A#16

/-! ### TICK (41_tick.md) -/

/-- R95: a pending TX side with R = 1 hands the whole queue over as one packet, sets the flag to whether exactly C_TX
bytes went, and clears the count and the reject counter. -/
def Obligations.FlushSendsTheWholeQueue : Prop :=
  ∀ (s : State) (a : Bool) (n : BitVec 7), (Instr.tick true a n).wf s.cfg.cRx = true →
    s.txqCount.toNat ≤ s.cfg.cTx → 0 < s.txqCount.toNat ∨ s.txqZlp = true →
    ∃ t, exec (.tick true a n) s = .next t ∧
      t.hist = s.hist ++ [.txPacket ((List.range s.txqCount.toNat).map (s.byteAt .tx))] ∧
      (t.txqZlp = true ↔ s.txqCount.toNat = s.cfg.cTx) ∧ t.txqCount = 0#7 ∧ t.txqReject = 0#3

/-- R96: a pending TX side with R = 0 counts the failure; a new count above MAX_REJECT drops and records the whole
batch, clears both counters, and clears the flag exactly when DISCARD_CLEARS_ZLP is true. Up to MAX_REJECT the failure
only counts. A put keeps a running count. -/
def Obligations.RejectCountsThenDiscards : Prop :=
  ∀ (s : State) (a : Bool) (n : BitVec 7), (Instr.tick false a n).wf s.cfg.cRx = true → s.cfg.maxReject ≤ 6 →
    0 < s.txqCount.toNat ∨ s.txqZlp = true →
    (s.txqReject.toNat + 1 ≤ s.cfg.maxReject → ∃ t, exec (.tick false a n) s = .next t ∧
      t.txqReject.toNat = s.txqReject.toNat + 1 ∧ t.txqCount = s.txqCount ∧ t.txqZlp = s.txqZlp ∧ t.hist = s.hist) ∧
    (s.cfg.maxReject < s.txqReject.toNat + 1 → ∃ t, exec (.tick false a n) s = .next t ∧
      t.hist = s.hist ++ [.txDiscard s.txqCount.toNat] ∧ t.txqCount = 0#7 ∧ t.txqReject = 0#3 ∧
      t.txqZlp = (if s.cfg.discardClearsZlp then false else s.txqZlp)) ∧
    (∀ b t, putByte b s = some t → t.txqReject = s.txqReject)

/-- R94: with TX not pending the TX side sends nothing, records nothing and changes nothing, whatever R is. -/
def Obligations.IdleTxSideChangesNothing : Prop :=
  ∀ (s : State) (r a : Bool) (n : BitVec 7), (Instr.tick r a n).wf s.cfg.cRx = true →
    s.txqCount = 0#7 → s.txqZlp = false →
    ∃ t, exec (.tick r a n) s = .next t ∧ t.hist = s.hist ∧ t.txqCount = 0#7 ∧ t.txqReject = s.txqReject ∧
      t.txqZlp = false ∧ t.txbuf = s.txbuf

/-- R98, R101, and R44: with the RX queue drained and A = 1 the batch goes to `rxbuf[0..N-1]`, the other bytes stay, the
count is N and the cursor 0; with N = 0 the queue stays drained. -/
def Obligations.RefillReplacesADrainedBatch : Prop :=
  ∀ (s : State) (r : Bool) (n : BitVec 7), (Instr.tick r true n).wf s.cfg.cRx = true →
    s.txqCount.toNat ≤ s.cfg.cTx → s.rxqCursor = s.rxqCount →
    ∃ t, exec (.tick r true n) s = .next t ∧ t.rxqCount = n ∧ t.rxqCursor = 0#7 ∧
      (∀ i b, i < n.toNat → s.rxLane[i]? = some b → t.byteAt .rx i = b) ∧
      (∀ i, n.toNat ≤ i → t.byteAt .rx i = s.byteAt .rx i) ∧ (n = 0#7 → t.rxqCursor = t.rxqCount)

/-- R99, R100: with the RX queue not drained, or with A = 0, the RX side does nothing: no unread byte is overwritten. -/
def Obligations.UndrainedRxSideDoesNothing : Prop :=
  ∀ (s : State) (r a : Bool) (n : BitVec 7), (Instr.tick r a n).wf s.cfg.cRx = true →
    s.txqCount.toNat ≤ s.cfg.cTx → s.rxqCursor ≠ s.rxqCount ∨ a = false →
    ∃ t, exec (.tick r a n) s = .next t ∧ t.rxqCount = s.rxqCount ∧ t.rxqCursor = s.rxqCursor ∧
      t.rxbuf = s.rxbuf ∧ ∀ i, t.byteAt .rx i = s.byteAt .rx i

/-- R102, the spec's own derivation from R90: a tick word that its encoding admits always completes, and no other is
taken. -/
def Obligations.EveryLegalTickCompletes : Prop :=
  ∀ (s : State) (rest : List Turn) (w : Word) (lane : List Byte),
    s.txqCount.toNat ≤ s.cfg.cTx → s.turns = .tick w lane :: rest →
    ((∃ i, decode s.cfg.cRx .tick w = .ok i) ↔ ∃ t, step s = .next t) ∧
    ∀ f, step s ≠ .fault f

/-- Frame of TICK (R90, 20_memory.md R56): nothing but the two queues, the history and ENV's answer counter changes; the
TX buffer and the packet buffer keep every byte, the RX buffer every byte outside a refill. -/
def Obligations.TickFrame : Prop :=
  ∀ (s t : State) (r a : Bool) (n : BitVec 7), exec (.tick r a n) s = .next t →
    t = { s with txqCount := t.txqCount, txqReject := t.txqReject, txqZlp := t.txqZlp, rxbuf := t.rxbuf,
                 rxqCount := t.rxqCount, rxqCursor := t.rxqCursor, hist := t.hist, drawCount := s.drawCount + 1 } ∧
    (∀ x i, x ≠ .rx → t.byteAt x i = s.byteAt x i) ∧
    (∀ i, ¬ (s.rxqCursor = s.rxqCount ∧ a = true ∧ i < n.toNat) → t.byteAt .rx i = s.byteAt .rx i)

/-- R103, the spec's own derivation from R94 and R95: exactly C_TX bytes put into an empty queue, each PUT taking two
MAIN steps (assumption 10), then ticks with R = 1 and A = 0: the first flush sends the C_TX bytes and sets the flag, the
second sends the zero-length packet and clears it, the third sends nothing. -/
def Obligations.FullFlushIsFollowedByOneEmptyPacket : Prop :=
  ∀ (s : State) (bs : List Byte) (l₁ l₂ l₃ : List Byte) (rest : List Turn) (more : List Command),
    s.cfg.Wf → s.mainPend = [] → s.txqCount = 0#7 → bs.length = s.cfg.cTx →
      s.cmds.drop s.ip = bs.map (fun b => ⟨encode (.put b), []⟩) ++ more →
      s.turns = List.replicate (2 * bs.length) .main ++
        .tick 0x8800#16 l₁ :: .tick 0x8800#16 l₂ :: .tick 0x8800#16 l₃ :: rest →
      ∃ t₁ t₂ t₃ : State, Sys2Proof.core.run (2 * bs.length + 1) s = .next t₁ ∧ t₁.hist = s.hist ++ [.txPacket bs] ∧
        t₁.txqZlp = true ∧ step t₁ = .next t₂ ∧ t₂.hist = s.hist ++ [.txPacket bs, .txPacket []] ∧
        t₂.txqZlp = false ∧ step t₂ = .next t₃ ∧ t₃.hist = t₂.hist ∧ t₃.txqZlp = false ∧ t₃.txqCount = 0#7

/-- R96, S5: under a stalled transport ticks 1 to MAX_REJECT only count, and tick MAX_REJECT+1 drops the batch, whole.
-/
def Obligations.StallDiscardsAtMaxRejectPlusOne : Prop :=
  ∀ (s : State), s.cfg.maxReject ≤ 6 → s.txqReject = 0#3 → 0 < s.txqCount.toNat ∨ s.txqZlp = true →
    (∀ k ≤ s.cfg.maxReject, ∃ t, execAll (List.replicate k (.tick false false 0#7)) s = .next t ∧
      t.txqReject.toNat = k ∧ t.txBatch = s.txBatch ∧ t.hist = s.hist) ∧
    ∃ t, execAll (List.replicate (s.cfg.maxReject + 1) (.tick false false 0#7)) s = .next t ∧
      t.txqReject = 0#3 ∧ t.txqCount = 0#7 ∧ t.hist = s.hist ++ [.txDiscard s.txqCount.toNat]

/-! ### PKT and CONFIG (42_accountant.md)

The statements about PKT hold for every W_SIZE. For a W_SIZE below 12 the spec does not say what R67's zero-extension of
LEN to W_SIZE bits means, and the class, the events, the lines and the copy they give there are the model's choice
(assumption 23, DESIGN CHOICE). -/

/-- 42_accountant.md section 1 (R106): a full-size packet adds its length and leaves the transfer open, with no text and
no event. For a W_SIZE below 12, that LEN keeps its 12 bits in the class is the model's choice (assumption 23). -/
def Obligations.FullSizePacketAccumulates : Prop :=
  ∀ (s : State) (len : BitVec 12), s.mainPend = [] → len.toNat = s.cfg.maxPkt →
    ∃ t, exec (.pkt len) s = .next t ∧ t.accRxSize = (s.accRxSize + len.toNat) % 2 ^ s.cfg.wSize ∧
      t.accRxCount = s.accRxCount ∧ t.mainPend = [] ∧ t.hist = s.hist ∧ t.ip = s.ip + 1

/-- 42_accountant.md sections 1 and 3 (R107, R114): an oversized packet records its index and length, queues exactly its
line, with no marker, and ends the transfer without adding the length. For a W_SIZE below 12, that LEN keeps its 12 bits
in the class, the record and the line is the model's choice (assumption 23). -/
def Obligations.OversizedPacketEndsTheTransfer : Prop :=
  ∀ (s : State) (len : BitVec 12), s.cfg.maxPkt < len.toNat →
    ∃ t, exec (.pkt len) s = .next t ∧ t.hist = s.hist ++ [.illegalPacket s.accRxCount len.toNat] ∧
      t.mainPend = (dec s.accRxCount ++
        [0x20#8, 0x2D#8, 0x20#8, 0x49#8, 0x6C#8, 0x6C#8, 0x65#8, 0x67#8, 0x61#8, 0x6C#8, 0x20#8] ++
        dec len.toNat ++ [0x42#8, 0x0D#8, 0x0A#8]).map .putByte ∧
      t.accRxSize = 0 ∧ t.accRxCount = (s.accRxCount + 1) % 2 ^ s.cfg.wXfer ∧ t.ip = s.ip

/-- 42_accountant.md sections 1 and 3 (R108, R113, R117): a short packet is added, giving the total. Off TARGET the
mismatch is recorded under the index before the increment and its line and then the marker are queued; on TARGET the
transfer is recorded as good and nothing is queued. Either way the size is 0 and the index one higher. For a W_SIZE
below 12, that LEN keeps its 12 bits in the class is the model's choice (assumption 23). -/
def Obligations.ShortPacketClosesTheTransfer : Prop :=
  ∀ (s : State) (len : BitVec 12) (total : Nat), s.mainPend = [] → len.toNat < s.cfg.maxPkt →
    total = (s.accRxSize + len.toNat) % 2 ^ s.cfg.wSize →
    ∃ t, exec (.pkt len) s = .next t ∧ t.accRxSize = 0 ∧ t.accRxCount = (s.accRxCount + 1) % 2 ^ s.cfg.wXfer ∧
      (total ≠ s.cfg.target → t.hist = s.hist ++ [.sizeMismatch s.accRxCount total] ∧ t.ip = s.ip ∧
        t.mainPend = (dec s.accRxCount ++ [0x20#8, 0x2D#8, 0x20#8] ++ dec total ++
          [0x42#8, 0x0D#8, 0x0A#8] ++ [0x2A#8]).map .putByte) ∧
      (total = s.cfg.target → t.hist = s.hist ++ [.transferOk s.accRxCount total] ∧ t.mainPend = [] ∧ t.ip = s.ip + 1)

/-- 20_memory.md R45: PKT stores the payload at `pktbuf[0 .. min(len, RXBUF_CAP)-1]` and nothing beyond, with LEN's 12
bits for every W_SIZE (below 12 the model's choice, assumption 23). -/
def Obligations.PktStoresThePayloadBounded : Prop :=
  ∀ (s : State) (len : BitVec 12), ∃ t, exec (.pkt len) s = .next t ∧
    (∀ i b, i < min len.toNat s.cfg.rxbufCap → s.outLane[i]? = some b → t.byteAt .pkt i = b) ∧
    (∀ i, min len.toNat s.cfg.rxbufCap ≤ i → t.byteAt .pkt i = s.byteAt .pkt i)

/-- Frame of PKT (R105): nothing but the packet buffer, the accountant, `main.pend`, `ip`, the history and ENV's answer
counter changes; the queues' buffers keep every byte, the packet buffer every byte beyond the copy (its length for a
W_SIZE below 12: assumption 23). -/
def Obligations.PktFrame : Prop :=
  ∀ (s t : State) (len : BitVec 12), exec (.pkt len) s = .next t →
    t = { s with pktbuf := t.pktbuf, accRxSize := t.accRxSize, accRxCount := t.accRxCount, mainPend := t.mainPend,
                 ip := t.ip, hist := t.hist, drawCount := s.drawCount + 1 } ∧
    (∀ x i, x ≠ .pkt → t.byteAt x i = s.byteAt x i) ∧
    (∀ i, min len.toNat s.cfg.rxbufCap ≤ i → t.byteAt .pkt i = s.byteAt .pkt i)

/-- 42_accountant.md section 4 (R120): a transfer is closed by a PKT exactly when its packet is not full-size. A W_XFER
of 0, whose index never changes, is left out (assumption 21); for a W_SIZE below 12, that LEN keeps its 12 bits in the
class is the model's choice (assumption 23). -/
def Obligations.TransferClosesExactlyOnShortOrOversized : Prop :=
  ∀ (s t : State) (len : BitVec 12), s.cfg.Wf → s.AccInv → 0 < s.cfg.wXfer → exec (.pkt len) s = .next t →
    (t.accRxCount = s.accRxCount ↔ len.toNat = s.cfg.maxPkt) ∧
    (len.toNat ≠ s.cfg.maxPkt → t.accRxSize = 0 ∧ t.accRxCount = (s.accRxCount + 1) % 2 ^ s.cfg.wXfer)

/-- R118, the spec's own derivation from R105, and 10_state.md R31: no step reads the packet buffer or the payload: two
states that differ only there step to outcomes that differ only there. -/
def Obligations.PayloadPlaysNoPart : Prop :=
  ∀ (s s' : State), s.withoutPayload = s'.withoutPayload →
    (∀ i, viewOutcome State.withoutPayload (exec i s) = viewOutcome State.withoutPayload (exec i s')) ∧
    viewOutcome State.withoutPayload (step s) = viewOutcome State.withoutPayload (step s')

/-- R119, the spec's own derivation from R106 to R108: for a run of full-size packets closed by a short one: at TARGET
no mismatch line is queued; off TARGET exactly the one mismatch event and its line and marker are; the size is 0
afterwards either way. After an oversized packet the next packet accumulates from 0: a full-size one leaves its own
length as the size, and a short one is judged by its own length. (That clause asks `exec` of the next packet while the
oversized one's line is still pending, which no step does: assumption 15.) For a W_SIZE below 12, that LEN keeps its 12
bits in the classes is the model's choice (assumption 23). -/
def Obligations.TransferOfManyPackets : Prop :=
  ∀ (s : State) (n : Nat) (len : BitVec 12) (total : Nat), s.cfg.Wf → s.mainPend = [] →
    len.toNat < s.cfg.maxPkt → total = (s.accRxSize + n * s.cfg.maxPkt + len.toNat) % 2 ^ s.cfg.wSize →
    (∃ t, execAll (List.replicate n (.pkt (BitVec.ofNat 12 s.cfg.maxPkt)) ++ [.pkt len]) s = .next t ∧
      t.accRxSize = 0 ∧ t.accRxCount = (s.accRxCount + 1) % 2 ^ s.cfg.wXfer ∧
      (total = s.cfg.target → t.mainPend = [] ∧ t.hist = s.hist ++ [.transferOk s.accRxCount total]) ∧
      (total ≠ s.cfg.target → t.hist = s.hist ++ [.sizeMismatch s.accRxCount total] ∧
        t.mainPend = (dec s.accRxCount ++ [0x20#8, 0x2D#8, 0x20#8] ++ dec total ++
          [0x42#8, 0x0D#8, 0x0A#8, 0x2A#8]).map .putByte)) ∧
    ∀ (big next : BitVec 12) (t u : State), s.cfg.maxPkt < big.toNat →
      exec (.pkt big) s = .next t → exec (.pkt next) t = .next u →
      (next.toNat = s.cfg.maxPkt → u.accRxSize = s.cfg.maxPkt % 2 ^ s.cfg.wSize) ∧
      (next.toNat < s.cfg.maxPkt → u.hist = t.hist ++
        [if next.toNat % 2 ^ s.cfg.wSize = s.cfg.target then .transferOk t.accRxCount s.cfg.target
          else .sizeMismatch t.accRxCount (next.toNat % 2 ^ s.cfg.wSize)])

/-- 42_accountant.md section 4 (R121): a run of full-size packets never closes, and the size grows by MAX_PKT a packet
modulo 2^W_SIZE. For a W_SIZE below 12, that a packet of MAX_PKT bytes is full-size is the model's choice
(assumption 23). -/
def Obligations.FullSizeRunWrapsTheSize : Prop :=
  ∀ (n : Nat) (s : State), s.cfg.Wf → s.AccInv → s.mainPend = [] →
    ∃ t, execAll (List.replicate n (.pkt (BitVec.ofNat 12 s.cfg.maxPkt))) s = .next t ∧
      t.accRxSize = (s.accRxSize + n * s.cfg.maxPkt) % 2 ^ s.cfg.wSize ∧ t.accRxCount = s.accRxCount ∧
      t.hist = s.hist ∧ t.mainPend = []

/-- R112: CONFIG zeroes the running size, records OUT_EP_ENABLE and completes; nothing else changes. Two CONFIGs leave
the state of one, with two events. -/
def Obligations.ConfigZeroesOnlyTheSize : Prop :=
  ∀ (s : State), s.mainPend = [] →
    exec .config s = .next { s with accRxSize := 0, hist := s.hist ++ [.outEpEnable], ip := s.ip + 1 } ∧
    execAll [.config, .config] s =
      .next { s with accRxSize := 0, hist := s.hist ++ [.outEpEnable, .outEpEnable], ip := s.ip + 2 }

/-- R115: `Dec(v)` is made of ASCII digits, has no leading zero, is "0" for 0, and reads back as `v`. -/
def Obligations.DecIsUnpaddedDecimal : Prop :=
  dec 0 = [0x30#8] ∧ ∀ v : Nat, dec v ≠ [] ∧ (∀ b ∈ dec v, 0x30 ≤ b.toNat ∧ b.toNat ≤ 0x39) ∧
    (v ≠ 0 → (dec v).head? ≠ some 0x30#8) ∧
    (dec v).foldl (fun acc b => acc * 10 + (b.toNat - 0x30)) 0 = v

/-! ### Events, reset and whole-machine rules -/

/-- R122: the code of each event, and which codes are errors. -/
def Obligations.EventCodesAndErrors : Prop :=
  ∀ (k n : Nat) (p : List Byte),
    eventCode (.illegalPacket k n) = 0x01#8 ∧ eventCode (.sizeMismatch k n) = 0x02#8 ∧
    eventCode (.txDiscard n) = 0x03#8 ∧ eventCode (.transferOk k n) = 0x10#8 ∧
    eventCode (.txPacket p) = 0x20#8 ∧ eventCode .outEpEnable = 0x21#8 ∧
    ∀ e, eventIsError e = true ↔ eventCode e = 0x01#8 ∨ eventCode e = 0x02#8 ∨ eventCode e = 0x03#8

/-- R141, R143: asserting `rst` in any state gives every element its reset value: the counters and the flag 0, `res`
unwritten, `main.pend` and `hist` empty, `ip` 0, the buffers unspecified; the parameters stay. The reset state has the
same values. (The bytes unspecified after reset are free values: assumption 7.) -/
def Obligations.ResetGivesTheResetValues : Prop :=
  ∀ (s : State) (cmds : List Command) (rest : List Turn), s.turns = .rst cmds :: rest →
    ∃ t, step s = .next t ∧ ∀ u, u = t ∨ u = State.reset →
      u.txqCount = 0#7 ∧ u.txqReject = 0#3 ∧ u.txqZlp = false ∧ u.rxqCount = 0#7 ∧ u.rxqCursor = 0#7 ∧
      u.accRxSize = 0 ∧ u.accRxCount = 0 ∧ u.mainPend = [] ∧ u.ip = 0 ∧ u.hist = [] ∧
      u.readRes = .fault .resUnwritten ∧ (u = t → u.cfg = s.cfg ∧ u.cmds = cmds ∧ u.turns = rest) ∧
      ∀ x i, u.byteAt x i = Config.unspecifiedByte u.resetCount x i

/-- The invariant holds right after reset, for every block with legal parameters, whatever stands on its ports. -/
def Obligations.ResetStateMeetsTheInvariant : Prop :=
  State.reset.Inv ∧ ∀ (c : Config) (cmds : List Command) (turns : List Turn), c.Wf →
    ({ State.resetWith c with cmds := cmds, turns := turns } : State).Inv

/-- Every step keeps the invariant: R36's four items, the widths of the accountant, the range of `res`, the buffers'
form and bounds, and that no unspecified byte can be read. -/
def Obligations.EveryStepKeepsTheInvariant : Prop :=
  ∀ (s t : State), s.Inv → step s = .next t → t.Inv

/-- R36, the spec's own derivation: between any two steps of a run from reset, with legal parameters and any commands,
ticks and resets, the four invariants hold. -/
def Obligations.QueueInvariantsHoldBetweenSteps : Prop :=
  ∀ (c : Config) (cmds : List Command) (turns : List Turn) (n : Nat) (t : State), c.Wf →
    Sys2Proof.core.run n { State.resetWith c with cmds := cmds, turns := turns } = .next t →
      (t.rxqCursor.toNat ≤ t.rxqCount.toNat ∧ t.rxqCount.toNat ≤ c.cRx) ∧ t.txqCount.toNat ≤ c.cTx ∧
      t.txqReject.toNat ≤ c.maxReject ∧ (0 < t.txqReject.toNat → 0 < t.txqCount.toNat ∨ t.txqZlp = true)

/-- R17: no step faults. In every state that meets the invariant a step answers a next state or is refused. -/
def Obligations.NoStepFaults : Prop :=
  ∀ (s : State) (f : Fault), s.Inv → step s ≠ .fault f

/-- R35, R131: steps only append to the history, at most one event a step (a reset, which empties it, apart). -/
def Obligations.HistoryOnlyGrows : Prop :=
  ∀ (s t : State), (∀ c rest, s.turns ≠ .rst c :: rest) → step s = .next t →
    ∃ es, t.hist = s.hist ++ es ∧ es.length ≤ 1

/-- 20_memory.md R56: who writes the shared state. A MAIN step leaves `txq.reject`, `txq.zlp`, `rxq.count` and `rxbuf`
alone, appends at most one byte, and moves the cursor only by one and only below the count. A TICK step leaves `txbuf`
alone, sets `txq.count` only to 0, and moves the cursor only to 0 and only when drained. -/
def Obligations.WritersOfTheSharedState : Prop :=
  ∀ (s t : State) (rest : List Turn), s.cfg.cTx ≤ 127 → step s = .next t →
    (s.turns = .main :: rest →
      t.txqReject = s.txqReject ∧ t.txqZlp = s.txqZlp ∧ t.rxqCount = s.rxqCount ∧ t.rxbuf = s.rxbuf ∧
      (t.txqCount = s.txqCount ∧ t.txbuf = s.txbuf ∨ t.txqCount.toNat = s.txqCount.toNat + 1) ∧
      (t.rxqCursor = s.rxqCursor ∨
        s.rxqCursor.toNat < s.rxqCount.toNat ∧ t.rxqCursor.toNat = s.rxqCursor.toNat + 1)) ∧
    (∀ w lane, s.turns = .tick w lane :: rest →
      t.txbuf = s.txbuf ∧ (t.txqCount = s.txqCount ∨ t.txqCount = 0#7) ∧
      (t.rxqCursor = s.rxqCursor ∧ t.rxqCount = s.rxqCount ∧ t.rxbuf = s.rxbuf ∨
        s.rxqCursor = s.rxqCount ∧ t.rxqCursor = 0#7))

/-- 10_state.md sections 1 to 4: which meaning writes which register. Only GET writes `res`, only PKT the transfer index
and the packet buffer, only PKT and CONFIG the running size, and of the command port's meanings only GET the cursor. The
meanings of PUT and PUTT are their issue actions (assumption 10), so here no meaning but TICK's writes `txq.count` or
`txbuf`: the put that R22 and R23 give to PUT is a later step, MicroStepAppendsOrHolds. -/
def Obligations.WritersOfTheRegisters : Prop :=
  ∀ (i : Instr) (s t : State), exec i s = .next t →
    (i ≠ .get → t.res = s.res ∧ t.resWritten = s.resWritten) ∧
    ((∀ len, i ≠ .pkt len) → t.accRxCount = s.accRxCount ∧ t.pktbuf = s.pktbuf ∧
      (i ≠ .config → t.accRxSize = s.accRxSize)) ∧
    ((∀ r a n, i ≠ .tick r a n) → t.txqCount = s.txqCount ∧ t.txbuf = s.txbuf ∧
      (i ≠ .get → t.rxqCursor = s.rxqCursor))

/-- 10_state.md R21: `ip` advances by one exactly as MAIN's step completes its command (a reset apart). It moves in no
other step, so never on a hold, on a tick or while micro-steps are left; and a MAIN step that had a command or a
micro-step to perform and leaves none pending advances it. -/
def Obligations.IpAdvancesOnlyWhenACommandCompletes : Prop :=
  ∀ (s t : State), (∀ c rest, s.turns ≠ .rst c :: rest) → step s = .next t →
    (t.ip = s.ip ∨ (t.ip = s.ip + 1 ∧ t.mainPend = [] ∧ (∃ rest, s.turns = .main :: rest) ∧
      (s.mainPend ≠ [] → s.txqCount.toNat < s.cfg.cTx))) ∧
    ((∃ rest, s.turns = .main :: rest) → s.mainPend ≠ [] ∨ (∃ c, s.cmds[s.ip]? = some c) → t.mainPend = [] →
      t.ip = s.ip + 1)

/-- 20_memory.md R53, the spec's own derivation from R50: bytes leave the TX queue in the order they were put. The bytes
already sent followed by the bytes pending change only by a put at the end, or by a discard of all that is pending. -/
def Obligations.TxBytesLeaveInPutOrder : Prop :=
  ∀ (s t : State), s.Inv → (∀ c rest, s.turns ≠ .rst c :: rest) → step s = .next t →
    t.txStream = s.txStream ∨
    (∃ b pend, s.mainPend = .putByte b :: pend ∧ t.sentBytes = s.sentBytes ∧ t.txStream = s.txStream ++ [b]) ∨
    (t.hist = s.hist ++ [.txDiscard s.txqCount.toNat] ∧ t.sentBytes = s.sentBytes ∧ t.txBatch = [])

/-- Assumption 1, the model's choice: the parameters of 00_scope.md section 3, which the spec makes model arguments,
stand in `State.cfg`, and no step changes them, a reset included. -/
def Obligations.ParametersNeverChange : Prop :=
  ∀ (s t : State), step s = .next t → t.cfg = s.cfg
end

