-- ==== Sys2Proof/Laws/State.lean ====
section
/-! SUPPORT. One lemma per field per named update of State, so that no proof unfolds a record update; then the views of
a buffer under the same updates. -/

namespace Sys2Proof.Machine

variable (s : State)


/-! ### record -/

@[simp] theorem State.record_cfg (e : Event) : (s.record e).cfg = s.cfg := rfl
@[simp] theorem State.record_res (e : Event) : (s.record e).res = s.res := rfl
@[simp] theorem State.record_resWritten (e : Event) : (s.record e).resWritten = s.resWritten := rfl
@[simp] theorem State.record_txbuf (e : Event) : (s.record e).txbuf = s.txbuf := rfl
@[simp] theorem State.record_txqCount (e : Event) : (s.record e).txqCount = s.txqCount := rfl
@[simp] theorem State.record_txqReject (e : Event) : (s.record e).txqReject = s.txqReject := rfl
@[simp] theorem State.record_txqZlp (e : Event) : (s.record e).txqZlp = s.txqZlp := rfl
@[simp] theorem State.record_rxbuf (e : Event) : (s.record e).rxbuf = s.rxbuf := rfl
@[simp] theorem State.record_rxqCount (e : Event) : (s.record e).rxqCount = s.rxqCount := rfl
@[simp] theorem State.record_rxqCursor (e : Event) : (s.record e).rxqCursor = s.rxqCursor := rfl
@[simp] theorem State.record_accRxSize (e : Event) : (s.record e).accRxSize = s.accRxSize := rfl
@[simp] theorem State.record_accRxCount (e : Event) : (s.record e).accRxCount = s.accRxCount := rfl
@[simp] theorem State.record_pktbuf (e : Event) : (s.record e).pktbuf = s.pktbuf := rfl
@[simp] theorem State.record_mainPend (e : Event) : (s.record e).mainPend = s.mainPend := rfl
@[simp] theorem State.record_ip (e : Event) : (s.record e).ip = s.ip := rfl
@[simp] theorem State.record_hist (e : Event) : (s.record e).hist = s.hist ++ [e] := rfl
@[simp] theorem State.record_cmds (e : Event) : (s.record e).cmds = s.cmds := rfl
@[simp] theorem State.record_outLane (e : Event) : (s.record e).outLane = s.outLane := rfl
@[simp] theorem State.record_rxLane (e : Event) : (s.record e).rxLane = s.rxLane := rfl
@[simp] theorem State.record_turns (e : Event) : (s.record e).turns = s.turns := rfl
@[simp] theorem State.record_drawCount (e : Event) : (s.record e).drawCount = s.drawCount := rfl
@[simp] theorem State.record_resetCount (e : Event) : (s.record e).resetCount = s.resetCount := rfl

/-! ### setPend -/

@[simp] theorem State.setPend_cfg (p : List MicroStep) : (s.setPend p).cfg = s.cfg := rfl
@[simp] theorem State.setPend_res (p : List MicroStep) : (s.setPend p).res = s.res := rfl
@[simp] theorem State.setPend_resWritten (p : List MicroStep) : (s.setPend p).resWritten = s.resWritten := rfl
@[simp] theorem State.setPend_txbuf (p : List MicroStep) : (s.setPend p).txbuf = s.txbuf := rfl
@[simp] theorem State.setPend_txqCount (p : List MicroStep) : (s.setPend p).txqCount = s.txqCount := rfl
@[simp] theorem State.setPend_txqReject (p : List MicroStep) : (s.setPend p).txqReject = s.txqReject := rfl
@[simp] theorem State.setPend_txqZlp (p : List MicroStep) : (s.setPend p).txqZlp = s.txqZlp := rfl
@[simp] theorem State.setPend_rxbuf (p : List MicroStep) : (s.setPend p).rxbuf = s.rxbuf := rfl
@[simp] theorem State.setPend_rxqCount (p : List MicroStep) : (s.setPend p).rxqCount = s.rxqCount := rfl
@[simp] theorem State.setPend_rxqCursor (p : List MicroStep) : (s.setPend p).rxqCursor = s.rxqCursor := rfl
@[simp] theorem State.setPend_accRxSize (p : List MicroStep) : (s.setPend p).accRxSize = s.accRxSize := rfl
@[simp] theorem State.setPend_accRxCount (p : List MicroStep) : (s.setPend p).accRxCount = s.accRxCount := rfl
@[simp] theorem State.setPend_pktbuf (p : List MicroStep) : (s.setPend p).pktbuf = s.pktbuf := rfl
@[simp] theorem State.setPend_mainPend (p : List MicroStep) : (s.setPend p).mainPend = p := rfl
@[simp] theorem State.setPend_ip (p : List MicroStep) : (s.setPend p).ip = s.ip := rfl
@[simp] theorem State.setPend_hist (p : List MicroStep) : (s.setPend p).hist = s.hist := rfl
@[simp] theorem State.setPend_cmds (p : List MicroStep) : (s.setPend p).cmds = s.cmds := rfl
@[simp] theorem State.setPend_outLane (p : List MicroStep) : (s.setPend p).outLane = s.outLane := rfl
@[simp] theorem State.setPend_rxLane (p : List MicroStep) : (s.setPend p).rxLane = s.rxLane := rfl
@[simp] theorem State.setPend_turns (p : List MicroStep) : (s.setPend p).turns = s.turns := rfl
@[simp] theorem State.setPend_drawCount (p : List MicroStep) : (s.setPend p).drawCount = s.drawCount := rfl
@[simp] theorem State.setPend_resetCount (p : List MicroStep) : (s.setPend p).resetCount = s.resetCount := rfl

/-! ### advanceIp -/

@[simp] theorem State.advanceIp_cfg : s.advanceIp.cfg = s.cfg := rfl
@[simp] theorem State.advanceIp_res : s.advanceIp.res = s.res := rfl
@[simp] theorem State.advanceIp_resWritten : s.advanceIp.resWritten = s.resWritten := rfl
@[simp] theorem State.advanceIp_txbuf : s.advanceIp.txbuf = s.txbuf := rfl
@[simp] theorem State.advanceIp_txqCount : s.advanceIp.txqCount = s.txqCount := rfl
@[simp] theorem State.advanceIp_txqReject : s.advanceIp.txqReject = s.txqReject := rfl
@[simp] theorem State.advanceIp_txqZlp : s.advanceIp.txqZlp = s.txqZlp := rfl
@[simp] theorem State.advanceIp_rxbuf : s.advanceIp.rxbuf = s.rxbuf := rfl
@[simp] theorem State.advanceIp_rxqCount : s.advanceIp.rxqCount = s.rxqCount := rfl
@[simp] theorem State.advanceIp_rxqCursor : s.advanceIp.rxqCursor = s.rxqCursor := rfl
@[simp] theorem State.advanceIp_accRxSize : s.advanceIp.accRxSize = s.accRxSize := rfl
@[simp] theorem State.advanceIp_accRxCount : s.advanceIp.accRxCount = s.accRxCount := rfl
@[simp] theorem State.advanceIp_pktbuf : s.advanceIp.pktbuf = s.pktbuf := rfl
@[simp] theorem State.advanceIp_mainPend : s.advanceIp.mainPend = s.mainPend := rfl
@[simp] theorem State.advanceIp_ip : s.advanceIp.ip = s.ip + 1 := rfl
@[simp] theorem State.advanceIp_hist : s.advanceIp.hist = s.hist := rfl
@[simp] theorem State.advanceIp_cmds : s.advanceIp.cmds = s.cmds := rfl
@[simp] theorem State.advanceIp_outLane : s.advanceIp.outLane = s.outLane := rfl
@[simp] theorem State.advanceIp_rxLane : s.advanceIp.rxLane = s.rxLane := rfl
@[simp] theorem State.advanceIp_turns : s.advanceIp.turns = s.turns := rfl
@[simp] theorem State.advanceIp_drawCount : s.advanceIp.drawCount = s.drawCount := rfl
@[simp] theorem State.advanceIp_resetCount : s.advanceIp.resetCount = s.resetCount := rfl

/-! ### setRes -/

@[simp] theorem State.setRes_cfg (v : Word) : (s.setRes v).cfg = s.cfg := rfl
@[simp] theorem State.setRes_res (v : Word) : (s.setRes v).res = v := rfl
@[simp] theorem State.setRes_resWritten (v : Word) : (s.setRes v).resWritten = true := rfl
@[simp] theorem State.setRes_txbuf (v : Word) : (s.setRes v).txbuf = s.txbuf := rfl
@[simp] theorem State.setRes_txqCount (v : Word) : (s.setRes v).txqCount = s.txqCount := rfl
@[simp] theorem State.setRes_txqReject (v : Word) : (s.setRes v).txqReject = s.txqReject := rfl
@[simp] theorem State.setRes_txqZlp (v : Word) : (s.setRes v).txqZlp = s.txqZlp := rfl
@[simp] theorem State.setRes_rxbuf (v : Word) : (s.setRes v).rxbuf = s.rxbuf := rfl
@[simp] theorem State.setRes_rxqCount (v : Word) : (s.setRes v).rxqCount = s.rxqCount := rfl
@[simp] theorem State.setRes_rxqCursor (v : Word) : (s.setRes v).rxqCursor = s.rxqCursor := rfl
@[simp] theorem State.setRes_accRxSize (v : Word) : (s.setRes v).accRxSize = s.accRxSize := rfl
@[simp] theorem State.setRes_accRxCount (v : Word) : (s.setRes v).accRxCount = s.accRxCount := rfl
@[simp] theorem State.setRes_pktbuf (v : Word) : (s.setRes v).pktbuf = s.pktbuf := rfl
@[simp] theorem State.setRes_mainPend (v : Word) : (s.setRes v).mainPend = s.mainPend := rfl
@[simp] theorem State.setRes_ip (v : Word) : (s.setRes v).ip = s.ip := rfl
@[simp] theorem State.setRes_hist (v : Word) : (s.setRes v).hist = s.hist := rfl
@[simp] theorem State.setRes_cmds (v : Word) : (s.setRes v).cmds = s.cmds := rfl
@[simp] theorem State.setRes_outLane (v : Word) : (s.setRes v).outLane = s.outLane := rfl
@[simp] theorem State.setRes_rxLane (v : Word) : (s.setRes v).rxLane = s.rxLane := rfl
@[simp] theorem State.setRes_turns (v : Word) : (s.setRes v).turns = s.turns := rfl
@[simp] theorem State.setRes_drawCount (v : Word) : (s.setRes v).drawCount = s.drawCount := rfl
@[simp] theorem State.setRes_resetCount (v : Word) : (s.setRes v).resetCount = s.resetCount := rfl

/-! ### setTxq -/

@[simp] theorem State.setTxq_cfg (c : BitVec 7) (r : BitVec 3) (z : Bool) : (s.setTxq c r z).cfg = s.cfg := rfl
@[simp] theorem State.setTxq_res (c : BitVec 7) (r : BitVec 3) (z : Bool) : (s.setTxq c r z).res = s.res := rfl
@[simp] theorem State.setTxq_resWritten (c : BitVec 7) (r : BitVec 3) (z : Bool) : (s.setTxq c r z).resWritten = s.resWritten := rfl
@[simp] theorem State.setTxq_txbuf (c : BitVec 7) (r : BitVec 3) (z : Bool) : (s.setTxq c r z).txbuf = s.txbuf := rfl
@[simp] theorem State.setTxq_txqCount (c : BitVec 7) (r : BitVec 3) (z : Bool) : (s.setTxq c r z).txqCount = c := rfl
@[simp] theorem State.setTxq_txqReject (c : BitVec 7) (r : BitVec 3) (z : Bool) : (s.setTxq c r z).txqReject = r := rfl
@[simp] theorem State.setTxq_txqZlp (c : BitVec 7) (r : BitVec 3) (z : Bool) : (s.setTxq c r z).txqZlp = z := rfl
@[simp] theorem State.setTxq_rxbuf (c : BitVec 7) (r : BitVec 3) (z : Bool) : (s.setTxq c r z).rxbuf = s.rxbuf := rfl
@[simp] theorem State.setTxq_rxqCount (c : BitVec 7) (r : BitVec 3) (z : Bool) : (s.setTxq c r z).rxqCount = s.rxqCount := rfl
@[simp] theorem State.setTxq_rxqCursor (c : BitVec 7) (r : BitVec 3) (z : Bool) : (s.setTxq c r z).rxqCursor = s.rxqCursor := rfl
@[simp] theorem State.setTxq_accRxSize (c : BitVec 7) (r : BitVec 3) (z : Bool) : (s.setTxq c r z).accRxSize = s.accRxSize := rfl
@[simp] theorem State.setTxq_accRxCount (c : BitVec 7) (r : BitVec 3) (z : Bool) : (s.setTxq c r z).accRxCount = s.accRxCount := rfl
@[simp] theorem State.setTxq_pktbuf (c : BitVec 7) (r : BitVec 3) (z : Bool) : (s.setTxq c r z).pktbuf = s.pktbuf := rfl
@[simp] theorem State.setTxq_mainPend (c : BitVec 7) (r : BitVec 3) (z : Bool) : (s.setTxq c r z).mainPend = s.mainPend := rfl
@[simp] theorem State.setTxq_ip (c : BitVec 7) (r : BitVec 3) (z : Bool) : (s.setTxq c r z).ip = s.ip := rfl
@[simp] theorem State.setTxq_hist (c : BitVec 7) (r : BitVec 3) (z : Bool) : (s.setTxq c r z).hist = s.hist := rfl
@[simp] theorem State.setTxq_cmds (c : BitVec 7) (r : BitVec 3) (z : Bool) : (s.setTxq c r z).cmds = s.cmds := rfl
@[simp] theorem State.setTxq_outLane (c : BitVec 7) (r : BitVec 3) (z : Bool) : (s.setTxq c r z).outLane = s.outLane := rfl
@[simp] theorem State.setTxq_rxLane (c : BitVec 7) (r : BitVec 3) (z : Bool) : (s.setTxq c r z).rxLane = s.rxLane := rfl
@[simp] theorem State.setTxq_turns (c : BitVec 7) (r : BitVec 3) (z : Bool) : (s.setTxq c r z).turns = s.turns := rfl
@[simp] theorem State.setTxq_drawCount (c : BitVec 7) (r : BitVec 3) (z : Bool) : (s.setTxq c r z).drawCount = s.drawCount := rfl
@[simp] theorem State.setTxq_resetCount (c : BitVec 7) (r : BitVec 3) (z : Bool) : (s.setTxq c r z).resetCount = s.resetCount := rfl

/-! ### setRxq -/

@[simp] theorem State.setRxq_cfg (c k : BitVec 7) : (s.setRxq c k).cfg = s.cfg := rfl
@[simp] theorem State.setRxq_res (c k : BitVec 7) : (s.setRxq c k).res = s.res := rfl
@[simp] theorem State.setRxq_resWritten (c k : BitVec 7) : (s.setRxq c k).resWritten = s.resWritten := rfl
@[simp] theorem State.setRxq_txbuf (c k : BitVec 7) : (s.setRxq c k).txbuf = s.txbuf := rfl
@[simp] theorem State.setRxq_txqCount (c k : BitVec 7) : (s.setRxq c k).txqCount = s.txqCount := rfl
@[simp] theorem State.setRxq_txqReject (c k : BitVec 7) : (s.setRxq c k).txqReject = s.txqReject := rfl
@[simp] theorem State.setRxq_txqZlp (c k : BitVec 7) : (s.setRxq c k).txqZlp = s.txqZlp := rfl
@[simp] theorem State.setRxq_rxbuf (c k : BitVec 7) : (s.setRxq c k).rxbuf = s.rxbuf := rfl
@[simp] theorem State.setRxq_rxqCount (c k : BitVec 7) : (s.setRxq c k).rxqCount = c := rfl
@[simp] theorem State.setRxq_rxqCursor (c k : BitVec 7) : (s.setRxq c k).rxqCursor = k := rfl
@[simp] theorem State.setRxq_accRxSize (c k : BitVec 7) : (s.setRxq c k).accRxSize = s.accRxSize := rfl
@[simp] theorem State.setRxq_accRxCount (c k : BitVec 7) : (s.setRxq c k).accRxCount = s.accRxCount := rfl
@[simp] theorem State.setRxq_pktbuf (c k : BitVec 7) : (s.setRxq c k).pktbuf = s.pktbuf := rfl
@[simp] theorem State.setRxq_mainPend (c k : BitVec 7) : (s.setRxq c k).mainPend = s.mainPend := rfl
@[simp] theorem State.setRxq_ip (c k : BitVec 7) : (s.setRxq c k).ip = s.ip := rfl
@[simp] theorem State.setRxq_hist (c k : BitVec 7) : (s.setRxq c k).hist = s.hist := rfl
@[simp] theorem State.setRxq_cmds (c k : BitVec 7) : (s.setRxq c k).cmds = s.cmds := rfl
@[simp] theorem State.setRxq_outLane (c k : BitVec 7) : (s.setRxq c k).outLane = s.outLane := rfl
@[simp] theorem State.setRxq_rxLane (c k : BitVec 7) : (s.setRxq c k).rxLane = s.rxLane := rfl
@[simp] theorem State.setRxq_turns (c k : BitVec 7) : (s.setRxq c k).turns = s.turns := rfl
@[simp] theorem State.setRxq_drawCount (c k : BitVec 7) : (s.setRxq c k).drawCount = s.drawCount := rfl
@[simp] theorem State.setRxq_resetCount (c k : BitVec 7) : (s.setRxq c k).resetCount = s.resetCount := rfl

/-! ### setAcc -/

@[simp] theorem State.setAcc_cfg (z c : Nat) : (s.setAcc z c).cfg = s.cfg := rfl
@[simp] theorem State.setAcc_res (z c : Nat) : (s.setAcc z c).res = s.res := rfl
@[simp] theorem State.setAcc_resWritten (z c : Nat) : (s.setAcc z c).resWritten = s.resWritten := rfl
@[simp] theorem State.setAcc_txbuf (z c : Nat) : (s.setAcc z c).txbuf = s.txbuf := rfl
@[simp] theorem State.setAcc_txqCount (z c : Nat) : (s.setAcc z c).txqCount = s.txqCount := rfl
@[simp] theorem State.setAcc_txqReject (z c : Nat) : (s.setAcc z c).txqReject = s.txqReject := rfl
@[simp] theorem State.setAcc_txqZlp (z c : Nat) : (s.setAcc z c).txqZlp = s.txqZlp := rfl
@[simp] theorem State.setAcc_rxbuf (z c : Nat) : (s.setAcc z c).rxbuf = s.rxbuf := rfl
@[simp] theorem State.setAcc_rxqCount (z c : Nat) : (s.setAcc z c).rxqCount = s.rxqCount := rfl
@[simp] theorem State.setAcc_rxqCursor (z c : Nat) : (s.setAcc z c).rxqCursor = s.rxqCursor := rfl
@[simp] theorem State.setAcc_accRxSize (z c : Nat) : (s.setAcc z c).accRxSize = z := rfl
@[simp] theorem State.setAcc_accRxCount (z c : Nat) : (s.setAcc z c).accRxCount = c := rfl
@[simp] theorem State.setAcc_pktbuf (z c : Nat) : (s.setAcc z c).pktbuf = s.pktbuf := rfl
@[simp] theorem State.setAcc_mainPend (z c : Nat) : (s.setAcc z c).mainPend = s.mainPend := rfl
@[simp] theorem State.setAcc_ip (z c : Nat) : (s.setAcc z c).ip = s.ip := rfl
@[simp] theorem State.setAcc_hist (z c : Nat) : (s.setAcc z c).hist = s.hist := rfl
@[simp] theorem State.setAcc_cmds (z c : Nat) : (s.setAcc z c).cmds = s.cmds := rfl
@[simp] theorem State.setAcc_outLane (z c : Nat) : (s.setAcc z c).outLane = s.outLane := rfl
@[simp] theorem State.setAcc_rxLane (z c : Nat) : (s.setAcc z c).rxLane = s.rxLane := rfl
@[simp] theorem State.setAcc_turns (z c : Nat) : (s.setAcc z c).turns = s.turns := rfl
@[simp] theorem State.setAcc_drawCount (z c : Nat) : (s.setAcc z c).drawCount = s.drawCount := rfl
@[simp] theorem State.setAcc_resetCount (z c : Nat) : (s.setAcc z c).resetCount = s.resetCount := rfl

/-! ### countDraw -/

@[simp] theorem State.countDraw_cfg : s.countDraw.cfg = s.cfg := rfl
@[simp] theorem State.countDraw_res : s.countDraw.res = s.res := rfl
@[simp] theorem State.countDraw_resWritten : s.countDraw.resWritten = s.resWritten := rfl
@[simp] theorem State.countDraw_txbuf : s.countDraw.txbuf = s.txbuf := rfl
@[simp] theorem State.countDraw_txqCount : s.countDraw.txqCount = s.txqCount := rfl
@[simp] theorem State.countDraw_txqReject : s.countDraw.txqReject = s.txqReject := rfl
@[simp] theorem State.countDraw_txqZlp : s.countDraw.txqZlp = s.txqZlp := rfl
@[simp] theorem State.countDraw_rxbuf : s.countDraw.rxbuf = s.rxbuf := rfl
@[simp] theorem State.countDraw_rxqCount : s.countDraw.rxqCount = s.rxqCount := rfl
@[simp] theorem State.countDraw_rxqCursor : s.countDraw.rxqCursor = s.rxqCursor := rfl
@[simp] theorem State.countDraw_accRxSize : s.countDraw.accRxSize = s.accRxSize := rfl
@[simp] theorem State.countDraw_accRxCount : s.countDraw.accRxCount = s.accRxCount := rfl
@[simp] theorem State.countDraw_pktbuf : s.countDraw.pktbuf = s.pktbuf := rfl
@[simp] theorem State.countDraw_mainPend : s.countDraw.mainPend = s.mainPend := rfl
@[simp] theorem State.countDraw_ip : s.countDraw.ip = s.ip := rfl
@[simp] theorem State.countDraw_hist : s.countDraw.hist = s.hist := rfl
@[simp] theorem State.countDraw_cmds : s.countDraw.cmds = s.cmds := rfl
@[simp] theorem State.countDraw_outLane : s.countDraw.outLane = s.outLane := rfl
@[simp] theorem State.countDraw_rxLane : s.countDraw.rxLane = s.rxLane := rfl
@[simp] theorem State.countDraw_turns : s.countDraw.turns = s.turns := rfl
@[simp] theorem State.countDraw_drawCount : s.countDraw.drawCount = s.drawCount + 1 := rfl
@[simp] theorem State.countDraw_resetCount : s.countDraw.resetCount = s.resetCount := rfl

/-! ### setTurns -/

@[simp] theorem State.setTurns_cfg (ts : List Turn) : (s.setTurns ts).cfg = s.cfg := rfl
@[simp] theorem State.setTurns_res (ts : List Turn) : (s.setTurns ts).res = s.res := rfl
@[simp] theorem State.setTurns_resWritten (ts : List Turn) : (s.setTurns ts).resWritten = s.resWritten := rfl
@[simp] theorem State.setTurns_txbuf (ts : List Turn) : (s.setTurns ts).txbuf = s.txbuf := rfl
@[simp] theorem State.setTurns_txqCount (ts : List Turn) : (s.setTurns ts).txqCount = s.txqCount := rfl
@[simp] theorem State.setTurns_txqReject (ts : List Turn) : (s.setTurns ts).txqReject = s.txqReject := rfl
@[simp] theorem State.setTurns_txqZlp (ts : List Turn) : (s.setTurns ts).txqZlp = s.txqZlp := rfl
@[simp] theorem State.setTurns_rxbuf (ts : List Turn) : (s.setTurns ts).rxbuf = s.rxbuf := rfl
@[simp] theorem State.setTurns_rxqCount (ts : List Turn) : (s.setTurns ts).rxqCount = s.rxqCount := rfl
@[simp] theorem State.setTurns_rxqCursor (ts : List Turn) : (s.setTurns ts).rxqCursor = s.rxqCursor := rfl
@[simp] theorem State.setTurns_accRxSize (ts : List Turn) : (s.setTurns ts).accRxSize = s.accRxSize := rfl
@[simp] theorem State.setTurns_accRxCount (ts : List Turn) : (s.setTurns ts).accRxCount = s.accRxCount := rfl
@[simp] theorem State.setTurns_pktbuf (ts : List Turn) : (s.setTurns ts).pktbuf = s.pktbuf := rfl
@[simp] theorem State.setTurns_mainPend (ts : List Turn) : (s.setTurns ts).mainPend = s.mainPend := rfl
@[simp] theorem State.setTurns_ip (ts : List Turn) : (s.setTurns ts).ip = s.ip := rfl
@[simp] theorem State.setTurns_hist (ts : List Turn) : (s.setTurns ts).hist = s.hist := rfl
@[simp] theorem State.setTurns_cmds (ts : List Turn) : (s.setTurns ts).cmds = s.cmds := rfl
@[simp] theorem State.setTurns_outLane (ts : List Turn) : (s.setTurns ts).outLane = s.outLane := rfl
@[simp] theorem State.setTurns_rxLane (ts : List Turn) : (s.setTurns ts).rxLane = s.rxLane := rfl
@[simp] theorem State.setTurns_turns (ts : List Turn) : (s.setTurns ts).turns = ts := rfl
@[simp] theorem State.setTurns_drawCount (ts : List Turn) : (s.setTurns ts).drawCount = s.drawCount := rfl
@[simp] theorem State.setTurns_resetCount (ts : List Turn) : (s.setTurns ts).resetCount = s.resetCount := rfl

/-! ### setOutLane -/

@[simp] theorem State.setOutLane_cfg (bs : List Byte) : (s.setOutLane bs).cfg = s.cfg := rfl
@[simp] theorem State.setOutLane_res (bs : List Byte) : (s.setOutLane bs).res = s.res := rfl
@[simp] theorem State.setOutLane_resWritten (bs : List Byte) : (s.setOutLane bs).resWritten = s.resWritten := rfl
@[simp] theorem State.setOutLane_txbuf (bs : List Byte) : (s.setOutLane bs).txbuf = s.txbuf := rfl
@[simp] theorem State.setOutLane_txqCount (bs : List Byte) : (s.setOutLane bs).txqCount = s.txqCount := rfl
@[simp] theorem State.setOutLane_txqReject (bs : List Byte) : (s.setOutLane bs).txqReject = s.txqReject := rfl
@[simp] theorem State.setOutLane_txqZlp (bs : List Byte) : (s.setOutLane bs).txqZlp = s.txqZlp := rfl
@[simp] theorem State.setOutLane_rxbuf (bs : List Byte) : (s.setOutLane bs).rxbuf = s.rxbuf := rfl
@[simp] theorem State.setOutLane_rxqCount (bs : List Byte) : (s.setOutLane bs).rxqCount = s.rxqCount := rfl
@[simp] theorem State.setOutLane_rxqCursor (bs : List Byte) : (s.setOutLane bs).rxqCursor = s.rxqCursor := rfl
@[simp] theorem State.setOutLane_accRxSize (bs : List Byte) : (s.setOutLane bs).accRxSize = s.accRxSize := rfl
@[simp] theorem State.setOutLane_accRxCount (bs : List Byte) : (s.setOutLane bs).accRxCount = s.accRxCount := rfl
@[simp] theorem State.setOutLane_pktbuf (bs : List Byte) : (s.setOutLane bs).pktbuf = s.pktbuf := rfl
@[simp] theorem State.setOutLane_mainPend (bs : List Byte) : (s.setOutLane bs).mainPend = s.mainPend := rfl
@[simp] theorem State.setOutLane_ip (bs : List Byte) : (s.setOutLane bs).ip = s.ip := rfl
@[simp] theorem State.setOutLane_hist (bs : List Byte) : (s.setOutLane bs).hist = s.hist := rfl
@[simp] theorem State.setOutLane_cmds (bs : List Byte) : (s.setOutLane bs).cmds = s.cmds := rfl
@[simp] theorem State.setOutLane_outLane (bs : List Byte) : (s.setOutLane bs).outLane = bs := rfl
@[simp] theorem State.setOutLane_rxLane (bs : List Byte) : (s.setOutLane bs).rxLane = s.rxLane := rfl
@[simp] theorem State.setOutLane_turns (bs : List Byte) : (s.setOutLane bs).turns = s.turns := rfl
@[simp] theorem State.setOutLane_drawCount (bs : List Byte) : (s.setOutLane bs).drawCount = s.drawCount := rfl
@[simp] theorem State.setOutLane_resetCount (bs : List Byte) : (s.setOutLane bs).resetCount = s.resetCount := rfl

/-! ### setRxLane -/

@[simp] theorem State.setRxLane_cfg (bs : List Byte) : (s.setRxLane bs).cfg = s.cfg := rfl
@[simp] theorem State.setRxLane_res (bs : List Byte) : (s.setRxLane bs).res = s.res := rfl
@[simp] theorem State.setRxLane_resWritten (bs : List Byte) : (s.setRxLane bs).resWritten = s.resWritten := rfl
@[simp] theorem State.setRxLane_txbuf (bs : List Byte) : (s.setRxLane bs).txbuf = s.txbuf := rfl
@[simp] theorem State.setRxLane_txqCount (bs : List Byte) : (s.setRxLane bs).txqCount = s.txqCount := rfl
@[simp] theorem State.setRxLane_txqReject (bs : List Byte) : (s.setRxLane bs).txqReject = s.txqReject := rfl
@[simp] theorem State.setRxLane_txqZlp (bs : List Byte) : (s.setRxLane bs).txqZlp = s.txqZlp := rfl
@[simp] theorem State.setRxLane_rxbuf (bs : List Byte) : (s.setRxLane bs).rxbuf = s.rxbuf := rfl
@[simp] theorem State.setRxLane_rxqCount (bs : List Byte) : (s.setRxLane bs).rxqCount = s.rxqCount := rfl
@[simp] theorem State.setRxLane_rxqCursor (bs : List Byte) : (s.setRxLane bs).rxqCursor = s.rxqCursor := rfl
@[simp] theorem State.setRxLane_accRxSize (bs : List Byte) : (s.setRxLane bs).accRxSize = s.accRxSize := rfl
@[simp] theorem State.setRxLane_accRxCount (bs : List Byte) : (s.setRxLane bs).accRxCount = s.accRxCount := rfl
@[simp] theorem State.setRxLane_pktbuf (bs : List Byte) : (s.setRxLane bs).pktbuf = s.pktbuf := rfl
@[simp] theorem State.setRxLane_mainPend (bs : List Byte) : (s.setRxLane bs).mainPend = s.mainPend := rfl
@[simp] theorem State.setRxLane_ip (bs : List Byte) : (s.setRxLane bs).ip = s.ip := rfl
@[simp] theorem State.setRxLane_hist (bs : List Byte) : (s.setRxLane bs).hist = s.hist := rfl
@[simp] theorem State.setRxLane_cmds (bs : List Byte) : (s.setRxLane bs).cmds = s.cmds := rfl
@[simp] theorem State.setRxLane_outLane (bs : List Byte) : (s.setRxLane bs).outLane = s.outLane := rfl
@[simp] theorem State.setRxLane_rxLane (bs : List Byte) : (s.setRxLane bs).rxLane = bs := rfl
@[simp] theorem State.setRxLane_turns (bs : List Byte) : (s.setRxLane bs).turns = s.turns := rfl
@[simp] theorem State.setRxLane_drawCount (bs : List Byte) : (s.setRxLane bs).drawCount = s.drawCount := rfl
@[simp] theorem State.setRxLane_resetCount (bs : List Byte) : (s.setRxLane bs).resetCount = s.resetCount := rfl

/-! ### setBuffer -/

@[simp] theorem State.setBuffer_cfg (b : Buf) (m : Memory) : (s.setBuffer b m).cfg = s.cfg := by cases b <;> rfl
@[simp] theorem State.setBuffer_res (b : Buf) (m : Memory) : (s.setBuffer b m).res = s.res := by cases b <;> rfl
@[simp] theorem State.setBuffer_resWritten (b : Buf) (m : Memory) : (s.setBuffer b m).resWritten = s.resWritten := by cases b <;> rfl
@[simp] theorem State.setBuffer_txqCount (b : Buf) (m : Memory) : (s.setBuffer b m).txqCount = s.txqCount := by cases b <;> rfl
@[simp] theorem State.setBuffer_txqReject (b : Buf) (m : Memory) : (s.setBuffer b m).txqReject = s.txqReject := by cases b <;> rfl
@[simp] theorem State.setBuffer_txqZlp (b : Buf) (m : Memory) : (s.setBuffer b m).txqZlp = s.txqZlp := by cases b <;> rfl
@[simp] theorem State.setBuffer_rxqCount (b : Buf) (m : Memory) : (s.setBuffer b m).rxqCount = s.rxqCount := by cases b <;> rfl
@[simp] theorem State.setBuffer_rxqCursor (b : Buf) (m : Memory) : (s.setBuffer b m).rxqCursor = s.rxqCursor := by cases b <;> rfl
@[simp] theorem State.setBuffer_accRxSize (b : Buf) (m : Memory) : (s.setBuffer b m).accRxSize = s.accRxSize := by cases b <;> rfl
@[simp] theorem State.setBuffer_accRxCount (b : Buf) (m : Memory) : (s.setBuffer b m).accRxCount = s.accRxCount := by cases b <;> rfl
@[simp] theorem State.setBuffer_mainPend (b : Buf) (m : Memory) : (s.setBuffer b m).mainPend = s.mainPend := by cases b <;> rfl
@[simp] theorem State.setBuffer_ip (b : Buf) (m : Memory) : (s.setBuffer b m).ip = s.ip := by cases b <;> rfl
@[simp] theorem State.setBuffer_hist (b : Buf) (m : Memory) : (s.setBuffer b m).hist = s.hist := by cases b <;> rfl
@[simp] theorem State.setBuffer_cmds (b : Buf) (m : Memory) : (s.setBuffer b m).cmds = s.cmds := by cases b <;> rfl
@[simp] theorem State.setBuffer_outLane (b : Buf) (m : Memory) : (s.setBuffer b m).outLane = s.outLane := by cases b <;> rfl
@[simp] theorem State.setBuffer_rxLane (b : Buf) (m : Memory) : (s.setBuffer b m).rxLane = s.rxLane := by cases b <;> rfl
@[simp] theorem State.setBuffer_turns (b : Buf) (m : Memory) : (s.setBuffer b m).turns = s.turns := by cases b <;> rfl
@[simp] theorem State.setBuffer_drawCount (b : Buf) (m : Memory) : (s.setBuffer b m).drawCount = s.drawCount := by cases b <;> rfl
@[simp] theorem State.setBuffer_resetCount (b : Buf) (m : Memory) : (s.setBuffer b m).resetCount = s.resetCount := by cases b <;> rfl

/-! ### store -/

@[simp] theorem State.store_cfg (b : Buf) (i : Nat) (bs : List Byte) : (s.store b i bs).cfg = s.cfg := by cases b <;> rfl
@[simp] theorem State.store_res (b : Buf) (i : Nat) (bs : List Byte) : (s.store b i bs).res = s.res := by cases b <;> rfl
@[simp] theorem State.store_resWritten (b : Buf) (i : Nat) (bs : List Byte) : (s.store b i bs).resWritten = s.resWritten := by cases b <;> rfl
@[simp] theorem State.store_txqCount (b : Buf) (i : Nat) (bs : List Byte) : (s.store b i bs).txqCount = s.txqCount := by cases b <;> rfl
@[simp] theorem State.store_txqReject (b : Buf) (i : Nat) (bs : List Byte) : (s.store b i bs).txqReject = s.txqReject := by cases b <;> rfl
@[simp] theorem State.store_txqZlp (b : Buf) (i : Nat) (bs : List Byte) : (s.store b i bs).txqZlp = s.txqZlp := by cases b <;> rfl
@[simp] theorem State.store_rxqCount (b : Buf) (i : Nat) (bs : List Byte) : (s.store b i bs).rxqCount = s.rxqCount := by cases b <;> rfl
@[simp] theorem State.store_rxqCursor (b : Buf) (i : Nat) (bs : List Byte) : (s.store b i bs).rxqCursor = s.rxqCursor := by cases b <;> rfl
@[simp] theorem State.store_accRxSize (b : Buf) (i : Nat) (bs : List Byte) : (s.store b i bs).accRxSize = s.accRxSize := by cases b <;> rfl
@[simp] theorem State.store_accRxCount (b : Buf) (i : Nat) (bs : List Byte) : (s.store b i bs).accRxCount = s.accRxCount := by cases b <;> rfl
@[simp] theorem State.store_mainPend (b : Buf) (i : Nat) (bs : List Byte) : (s.store b i bs).mainPend = s.mainPend := by cases b <;> rfl
@[simp] theorem State.store_ip (b : Buf) (i : Nat) (bs : List Byte) : (s.store b i bs).ip = s.ip := by cases b <;> rfl
@[simp] theorem State.store_hist (b : Buf) (i : Nat) (bs : List Byte) : (s.store b i bs).hist = s.hist := by cases b <;> rfl
@[simp] theorem State.store_cmds (b : Buf) (i : Nat) (bs : List Byte) : (s.store b i bs).cmds = s.cmds := by cases b <;> rfl
@[simp] theorem State.store_outLane (b : Buf) (i : Nat) (bs : List Byte) : (s.store b i bs).outLane = s.outLane := by cases b <;> rfl
@[simp] theorem State.store_rxLane (b : Buf) (i : Nat) (bs : List Byte) : (s.store b i bs).rxLane = s.rxLane := by cases b <;> rfl
@[simp] theorem State.store_turns (b : Buf) (i : Nat) (bs : List Byte) : (s.store b i bs).turns = s.turns := by cases b <;> rfl
@[simp] theorem State.store_drawCount (b : Buf) (i : Nat) (bs : List Byte) : (s.store b i bs).drawCount = s.drawCount := by cases b <;> rfl
@[simp] theorem State.store_resetCount (b : Buf) (i : Nat) (bs : List Byte) : (s.store b i bs).resetCount = s.resetCount := by cases b <;> rfl

/-! ### finishIfDone -/

@[simp] theorem State.finishIfDone_cfg : s.finishIfDone.cfg = s.cfg := by unfold State.finishIfDone; split <;> rfl
@[simp] theorem State.finishIfDone_res : s.finishIfDone.res = s.res := by unfold State.finishIfDone; split <;> rfl
@[simp] theorem State.finishIfDone_resWritten : s.finishIfDone.resWritten = s.resWritten := by unfold State.finishIfDone; split <;> rfl
@[simp] theorem State.finishIfDone_txbuf : s.finishIfDone.txbuf = s.txbuf := by unfold State.finishIfDone; split <;> rfl
@[simp] theorem State.finishIfDone_txqCount : s.finishIfDone.txqCount = s.txqCount := by unfold State.finishIfDone; split <;> rfl
@[simp] theorem State.finishIfDone_txqReject : s.finishIfDone.txqReject = s.txqReject := by unfold State.finishIfDone; split <;> rfl
@[simp] theorem State.finishIfDone_txqZlp : s.finishIfDone.txqZlp = s.txqZlp := by unfold State.finishIfDone; split <;> rfl
@[simp] theorem State.finishIfDone_rxbuf : s.finishIfDone.rxbuf = s.rxbuf := by unfold State.finishIfDone; split <;> rfl
@[simp] theorem State.finishIfDone_rxqCount : s.finishIfDone.rxqCount = s.rxqCount := by unfold State.finishIfDone; split <;> rfl
@[simp] theorem State.finishIfDone_rxqCursor : s.finishIfDone.rxqCursor = s.rxqCursor := by unfold State.finishIfDone; split <;> rfl
@[simp] theorem State.finishIfDone_accRxSize : s.finishIfDone.accRxSize = s.accRxSize := by unfold State.finishIfDone; split <;> rfl
@[simp] theorem State.finishIfDone_accRxCount : s.finishIfDone.accRxCount = s.accRxCount := by unfold State.finishIfDone; split <;> rfl
@[simp] theorem State.finishIfDone_pktbuf : s.finishIfDone.pktbuf = s.pktbuf := by unfold State.finishIfDone; split <;> rfl
@[simp] theorem State.finishIfDone_mainPend : s.finishIfDone.mainPend = s.mainPend := by unfold State.finishIfDone; split <;> rfl
@[simp] theorem State.finishIfDone_hist : s.finishIfDone.hist = s.hist := by unfold State.finishIfDone; split <;> rfl
@[simp] theorem State.finishIfDone_cmds : s.finishIfDone.cmds = s.cmds := by unfold State.finishIfDone; split <;> rfl
@[simp] theorem State.finishIfDone_outLane : s.finishIfDone.outLane = s.outLane := by unfold State.finishIfDone; split <;> rfl
@[simp] theorem State.finishIfDone_rxLane : s.finishIfDone.rxLane = s.rxLane := by unfold State.finishIfDone; split <;> rfl
@[simp] theorem State.finishIfDone_turns : s.finishIfDone.turns = s.turns := by unfold State.finishIfDone; split <;> rfl
@[simp] theorem State.finishIfDone_drawCount : s.finishIfDone.drawCount = s.drawCount := by unfold State.finishIfDone; split <;> rfl
@[simp] theorem State.finishIfDone_resetCount : s.finishIfDone.resetCount = s.resetCount := by unfold State.finishIfDone; split <;> rfl

/-! ### assertRst -/

@[simp] theorem State.assertRst_cfg (c : List Command) : (s.assertRst c).cfg = s.cfg := rfl
@[simp] theorem State.assertRst_res (c : List Command) : (s.assertRst c).res = 0#16 := rfl
@[simp] theorem State.assertRst_resWritten (c : List Command) : (s.assertRst c).resWritten = false := rfl
@[simp] theorem State.assertRst_txbuf (c : List Command) : (s.assertRst c).txbuf = [] := rfl
@[simp] theorem State.assertRst_txqCount (c : List Command) : (s.assertRst c).txqCount = 0#7 := rfl
@[simp] theorem State.assertRst_txqReject (c : List Command) : (s.assertRst c).txqReject = 0#3 := rfl
@[simp] theorem State.assertRst_txqZlp (c : List Command) : (s.assertRst c).txqZlp = false := rfl
@[simp] theorem State.assertRst_rxbuf (c : List Command) : (s.assertRst c).rxbuf = [] := rfl
@[simp] theorem State.assertRst_rxqCount (c : List Command) : (s.assertRst c).rxqCount = 0#7 := rfl
@[simp] theorem State.assertRst_rxqCursor (c : List Command) : (s.assertRst c).rxqCursor = 0#7 := rfl
@[simp] theorem State.assertRst_accRxSize (c : List Command) : (s.assertRst c).accRxSize = 0 := rfl
@[simp] theorem State.assertRst_accRxCount (c : List Command) : (s.assertRst c).accRxCount = 0 := rfl
@[simp] theorem State.assertRst_pktbuf (c : List Command) : (s.assertRst c).pktbuf = [] := rfl
@[simp] theorem State.assertRst_mainPend (c : List Command) : (s.assertRst c).mainPend = [] := rfl
@[simp] theorem State.assertRst_ip (c : List Command) : (s.assertRst c).ip = 0 := rfl
@[simp] theorem State.assertRst_hist (c : List Command) : (s.assertRst c).hist = [] := rfl
@[simp] theorem State.assertRst_cmds (c : List Command) : (s.assertRst c).cmds = c := rfl
@[simp] theorem State.assertRst_outLane (c : List Command) : (s.assertRst c).outLane = s.outLane := rfl
@[simp] theorem State.assertRst_rxLane (c : List Command) : (s.assertRst c).rxLane = s.rxLane := rfl
@[simp] theorem State.assertRst_turns (c : List Command) : (s.assertRst c).turns = s.turns := rfl
@[simp] theorem State.assertRst_drawCount (c : List Command) : (s.assertRst c).drawCount = s.drawCount := rfl
@[simp] theorem State.assertRst_resetCount (c : List Command) : (s.assertRst c).resetCount = s.resetCount + 1 := rfl

/-! ### Buffers and bytes under the updates -/

@[simp] theorem State.record_buffer (e : Event) (x : Buf) : (s.record e).buffer x = s.buffer x := by cases x <;> rfl
@[simp] theorem State.record_byteAt (e : Event) (x : Buf) (i : Nat) : (s.record e).byteAt x i = s.byteAt x i := by
  simp [State.byteAt]
@[simp] theorem State.record_txBatch (e : Event) : (s.record e).txBatch = s.txBatch := by simp [State.txBatch, State.byteAt]
@[simp] theorem State.setPend_buffer (p : List MicroStep) (x : Buf) : (s.setPend p).buffer x = s.buffer x := by cases x <;> rfl
@[simp] theorem State.setPend_byteAt (p : List MicroStep) (x : Buf) (i : Nat) : (s.setPend p).byteAt x i = s.byteAt x i := by
  simp [State.byteAt]
@[simp] theorem State.setPend_txBatch (p : List MicroStep) : (s.setPend p).txBatch = s.txBatch := by simp [State.txBatch, State.byteAt]
@[simp] theorem State.advanceIp_buffer (x : Buf) : s.advanceIp.buffer x = s.buffer x := by cases x <;> rfl
@[simp] theorem State.advanceIp_byteAt (x : Buf) (i : Nat) : s.advanceIp.byteAt x i = s.byteAt x i := by
  simp [State.byteAt]
@[simp] theorem State.advanceIp_txBatch : s.advanceIp.txBatch = s.txBatch := by simp [State.txBatch, State.byteAt]
@[simp] theorem State.setRes_buffer (v : Word) (x : Buf) : (s.setRes v).buffer x = s.buffer x := by cases x <;> rfl
@[simp] theorem State.setRes_byteAt (v : Word) (x : Buf) (i : Nat) : (s.setRes v).byteAt x i = s.byteAt x i := by
  simp [State.byteAt]
@[simp] theorem State.setRes_txBatch (v : Word) : (s.setRes v).txBatch = s.txBatch := by simp [State.txBatch, State.byteAt]
@[simp] theorem State.setTxq_buffer (c : BitVec 7) (r : BitVec 3) (z : Bool) (x : Buf) : (s.setTxq c r z).buffer x = s.buffer x := by cases x <;> rfl
@[simp] theorem State.setTxq_byteAt (c : BitVec 7) (r : BitVec 3) (z : Bool) (x : Buf) (i : Nat) : (s.setTxq c r z).byteAt x i = s.byteAt x i := by
  simp [State.byteAt]
@[simp] theorem State.setRxq_buffer (c k : BitVec 7) (x : Buf) : (s.setRxq c k).buffer x = s.buffer x := by cases x <;> rfl
@[simp] theorem State.setRxq_byteAt (c k : BitVec 7) (x : Buf) (i : Nat) : (s.setRxq c k).byteAt x i = s.byteAt x i := by
  simp [State.byteAt]
@[simp] theorem State.setRxq_txBatch (c k : BitVec 7) : (s.setRxq c k).txBatch = s.txBatch := by simp [State.txBatch, State.byteAt]
@[simp] theorem State.setAcc_buffer (z c : Nat) (x : Buf) : (s.setAcc z c).buffer x = s.buffer x := by cases x <;> rfl
@[simp] theorem State.setAcc_byteAt (z c : Nat) (x : Buf) (i : Nat) : (s.setAcc z c).byteAt x i = s.byteAt x i := by
  simp [State.byteAt]
@[simp] theorem State.setAcc_txBatch (z c : Nat) : (s.setAcc z c).txBatch = s.txBatch := by simp [State.txBatch, State.byteAt]
@[simp] theorem State.countDraw_buffer (x : Buf) : s.countDraw.buffer x = s.buffer x := by cases x <;> rfl
@[simp] theorem State.countDraw_byteAt (x : Buf) (i : Nat) : s.countDraw.byteAt x i = s.byteAt x i := by
  simp [State.byteAt]
@[simp] theorem State.countDraw_txBatch : s.countDraw.txBatch = s.txBatch := by simp [State.txBatch, State.byteAt]
@[simp] theorem State.setTurns_buffer (ts : List Turn) (x : Buf) : (s.setTurns ts).buffer x = s.buffer x := by cases x <;> rfl
@[simp] theorem State.setTurns_byteAt (ts : List Turn) (x : Buf) (i : Nat) : (s.setTurns ts).byteAt x i = s.byteAt x i := by
  simp [State.byteAt]
@[simp] theorem State.setTurns_txBatch (ts : List Turn) : (s.setTurns ts).txBatch = s.txBatch := by simp [State.txBatch, State.byteAt]
@[simp] theorem State.setOutLane_buffer (bs : List Byte) (x : Buf) : (s.setOutLane bs).buffer x = s.buffer x := by cases x <;> rfl
@[simp] theorem State.setOutLane_byteAt (bs : List Byte) (x : Buf) (i : Nat) : (s.setOutLane bs).byteAt x i = s.byteAt x i := by
  simp [State.byteAt]
@[simp] theorem State.setOutLane_txBatch (bs : List Byte) : (s.setOutLane bs).txBatch = s.txBatch := by simp [State.txBatch, State.byteAt]
@[simp] theorem State.setRxLane_buffer (bs : List Byte) (x : Buf) : (s.setRxLane bs).buffer x = s.buffer x := by cases x <;> rfl
@[simp] theorem State.setRxLane_byteAt (bs : List Byte) (x : Buf) (i : Nat) : (s.setRxLane bs).byteAt x i = s.byteAt x i := by
  simp [State.byteAt]
@[simp] theorem State.setRxLane_txBatch (bs : List Byte) : (s.setRxLane bs).txBatch = s.txBatch := by simp [State.txBatch, State.byteAt]
@[simp] theorem State.finishIfDone_buffer (x : Buf) : s.finishIfDone.buffer x = s.buffer x := by cases x <;> simp [State.buffer]
@[simp] theorem State.finishIfDone_byteAt (x : Buf) (i : Nat) : s.finishIfDone.byteAt x i = s.byteAt x i := by
  simp [State.byteAt]
@[simp] theorem State.finishIfDone_txBatch : s.finishIfDone.txBatch = s.txBatch := by simp [State.txBatch, State.byteAt]

@[simp] theorem State.buffer_setBuffer_self (b : Buf) (m : Memory) : (s.setBuffer b m).buffer b = m := by
  cases b <;> rfl

@[simp] theorem State.buffer_setBuffer_other (b x : Buf) (m : Memory) (h : x ≠ b) :
    (s.setBuffer b m).buffer x = s.buffer x := by
  cases b <;> cases x <;> first | rfl | exact absurd rfl h

theorem State.buffer_store_self (b : Buf) (i : Nat) (bs : List Byte) :
    (s.store b i bs).buffer b = Memory.writeAll (s.buffer b) i bs := by simp [State.store]

@[simp] theorem State.buffer_store_other (b x : Buf) (i : Nat) (bs : List Byte) (h : x ≠ b) :
    (s.store b i bs).buffer x = s.buffer x := by simp [State.store, h]

@[simp] theorem State.byteAt_store_other (b x : Buf) (i j : Nat) (bs : List Byte) (h : x ≠ b) :
    (s.store b i bs).byteAt x j = s.byteAt x j := by simp [State.byteAt, h]

@[simp] theorem State.store_tx_rxbuf (i : Nat) (bs : List Byte) : (s.store .tx i bs).rxbuf = s.rxbuf := rfl
@[simp] theorem State.store_tx_pktbuf (i : Nat) (bs : List Byte) : (s.store .tx i bs).pktbuf = s.pktbuf := rfl
@[simp] theorem State.store_rx_txbuf (i : Nat) (bs : List Byte) : (s.store .rx i bs).txbuf = s.txbuf := rfl
@[simp] theorem State.store_rx_pktbuf (i : Nat) (bs : List Byte) : (s.store .rx i bs).pktbuf = s.pktbuf := rfl
@[simp] theorem State.store_pkt_txbuf (i : Nat) (bs : List Byte) : (s.store .pkt i bs).txbuf = s.txbuf := rfl
@[simp] theorem State.store_pkt_rxbuf (i : Nat) (bs : List Byte) : (s.store .pkt i bs).rxbuf = s.rxbuf := rfl

@[simp] theorem State.store_tx_txbuf (i : Nat) (bs : List Byte) :
    (s.store .tx i bs).txbuf = Memory.writeAll s.txbuf i bs := rfl
@[simp] theorem State.store_rx_rxbuf (i : Nat) (bs : List Byte) :
    (s.store .rx i bs).rxbuf = Memory.writeAll s.rxbuf i bs := rfl
@[simp] theorem State.store_pkt_pktbuf (i : Nat) (bs : List Byte) :
    (s.store .pkt i bs).pktbuf = Memory.writeAll s.pktbuf i bs := rfl

@[simp] theorem State.finishIfDone_ip : s.finishIfDone.ip = if s.mainPend = [] then s.ip + 1 else s.ip := by
  unfold State.finishIfDone; split <;> rfl

end Sys2Proof.Machine
end

