-- ==== Sys2Proof/Laws/Memory.lean ====
section
/-! SUPPORT. What the buffer operations do: a read after a write, the canonical form kept, and the bound on indexes. -/

namespace Sys2Proof.Machine

theorem Memory.lookup_write (m : Memory) (i j : Nat) (b : Byte) :
    Memory.lookup (Memory.write m i b) j = if j = i then some b else Memory.lookup m j := by
  by_cases hj : j = i
  · subst hj
    induction m with
    | nil => simp [Memory.write, Memory.lookup]
    | cons c m ih =>
      simp only [Memory.write]
      split
      · simp [Memory.lookup]
      · split
        · simp [Memory.lookup]
        · have : c.1 ≠ j := fun h => by simp_all
          simpa [Memory.lookup, this] using ih
  · induction m with
    | nil => simp [Memory.write, Memory.lookup, hj, Ne.symm hj]
    | cons c m ih =>
      simp only [hj, if_false] at ih
      simp only [Memory.write]
      split
      · simp [Memory.lookup, Ne.symm hj]
      · split
        · have : c.1 ≠ j := fun h => hj (by omega)
          simp [Memory.lookup, Ne.symm hj, this]
        · simp [Memory.lookup, ih]

theorem Memory.lookup_writeAll (bs : List Byte) (m : Memory) (i j : Nat) :
    Memory.lookup (Memory.writeAll m i bs) j =
      if i ≤ j ∧ j < i + bs.length then bs[j - i]? else Memory.lookup m j := by
  induction bs generalizing m i with
  | nil => simp [Memory.writeAll]
  | cons b bs ih =>
    simp only [Memory.writeAll, ih, Memory.lookup_write, List.length_cons]
    rcases Nat.lt_trichotomy j i with h | rfl | h
    · rw [if_neg (by omega), if_neg (by omega), if_neg (by omega)]
    · rw [if_neg (by omega), if_pos rfl, if_pos (by omega)]; simp
    · obtain ⟨k, rfl⟩ : ∃ k, j = i + 1 + k := ⟨j - (i + 1), by omega⟩
      by_cases hk : k < bs.length
      · rw [if_pos (by omega), if_pos (by omega)]
        rw [show i + 1 + k - (i + 1) = k by omega, show i + 1 + k - i = k + 1 by omega, List.getElem?_cons_succ]
      · rw [if_neg (by omega), if_neg (by omega), if_neg (by omega)]

theorem Memory.mem_write_index (m : Memory) (i : Nat) (b : Byte) (k : Nat) :
    k ∈ (Memory.write m i b).map Prod.fst ↔ k = i ∨ k ∈ m.map Prod.fst := by
  induction m with
  | nil => simp [Memory.write]
  | cons c m ih =>
    obtain ⟨a, x⟩ := c
    simp only [Memory.write]
    split
    · simp
    · split
      · subst_vars; simp
      · rw [List.map_cons, List.mem_cons, ih, List.map_cons, List.mem_cons]; tauto

theorem Memory.wf_write (m : Memory) (i : Nat) (b : Byte) (h : Memory.Wf m) : Memory.Wf (Memory.write m i b) := by
  induction m with
  | nil => exact List.pairwise_singleton _ _
  | cons c m ih =>
    obtain ⟨a, x⟩ := c
    simp only [Memory.Wf, List.map_cons, List.pairwise_cons] at h
    simp only [Memory.write]
    split
    · simp only [Memory.Wf, List.map_cons, List.pairwise_cons]
      exact ⟨by intro k hk; rcases List.mem_cons.1 hk with rfl | hk
                · assumption
                · have := h.1 k hk; omega, h⟩
    · split
      · subst_vars; simpa only [Memory.Wf, List.map_cons, List.pairwise_cons] using h
      · simp only [Memory.Wf, List.map_cons, List.pairwise_cons]
        refine ⟨fun k hk => ?_, ih h.2⟩
        rcases (Memory.mem_write_index m i b k).1 hk with rfl | hk
        · omega
        · exact h.1 k hk

theorem Memory.wf_writeAll (bs : List Byte) (m : Memory) (i : Nat) (h : Memory.Wf m) :
    Memory.Wf (Memory.writeAll m i bs) := by
  induction bs generalizing m i with
  | nil => exact h
  | cons b bs ih => exact ih _ _ (Memory.wf_write m i b h)

theorem Memory.below_writeAll (bs : List Byte) (m : Memory) (i n : Nat) (h : Memory.Below m n)
    (hn : i + bs.length ≤ n) : Memory.Below (Memory.writeAll m i bs) n := by
  induction bs generalizing m i with
  | nil => exact h
  | cons b bs ih =>
    refine ih _ _ (fun k hk => ?_) (by simp at hn; omega)
    rcases (Memory.mem_write_index m i b k).1 hk with rfl | hk
    · simp at hn; omega
    · exact h k hk

/-- A byte read after a store: the byte stored at that index, else what was there. -/
theorem State.byteAt_store_self (s : State) (b : Buf) (i j : Nat) (bs : List Byte) :
    (s.store b i bs).byteAt b j =
      if i ≤ j ∧ j < i + bs.length then bs.getD (j - i) 0#8 else s.byteAt b j := by
  simp only [State.byteAt, State.buffer_store_self, Memory.lookup_writeAll, State.store_resetCount]
  split
  · rename_i h
    rw [List.getD_eq_getElem?_getD, List.getElem?_eq_getElem (by omega)]; simp
  · rfl

end Sys2Proof.Machine
end

