-- ==== Sys2Proof/Laws/Accountant.lean ====
section
/-! SUPPORT. What a PKT can do (42_accountant.md R105 to R111). -/

namespace Sys2Proof.Machine

@[simp] theorem State.packetBytes_length (s : State) (n : Nat) : (s.packetBytes n).length = n := by
  simp [State.packetBytes]

/-- Exactly one of the three classes applies to a packet (R111). -/
theorem classify_cases (len : BitVec 12) (s : State) :
    (s.cfg.maxPkt < len.toNat ∧ classify len s = oversizedPacket len s) ∨
    (len.toNat = s.cfg.maxPkt ∧ classify len s = fullSizePacket len s) ∨
    (len.toNat < s.cfg.maxPkt ∧ totalWith len s ≠ s.cfg.target ∧ classify len s =
      concludeTransfer ((s.record (.sizeMismatch s.accRxCount (totalWith len s))).setPend
        (textSteps (mismatchText s.accRxCount (totalWith len s)) ++ [.putByte marker]))) ∨
    (len.toNat < s.cfg.maxPkt ∧ totalWith len s = s.cfg.target ∧ classify len s =
      concludeTransfer (s.record (.transferOk s.accRxCount (totalWith len s)))) := by
  unfold classify shortPacket
  rcases Nat.lt_trichotomy len.toNat s.cfg.maxPkt with h | h | h
  · rw [if_neg (by omega), if_neg (by omega)]
    by_cases ht : totalWith len s = s.cfg.target
    · exact .inr (.inr (.inr ⟨h, ht, by simp [ht]⟩))
    · exact .inr (.inr (.inl ⟨h, ht, by simp [ht]⟩))
  · exact .inr (.inl ⟨h, by rw [if_neg (by omega), if_pos h]⟩)
  · exact .inl ⟨h, by rw [if_pos h]⟩

@[simp] theorem totalWith_copyPayload (len l : BitVec 12) (s : State) :
    totalWith len (copyPayload l s) = totalWith len s := by simp [totalWith, copyPayload]

end Sys2Proof.Machine
end

