-- ==== Sys2Proof/Laws/Decode.lean ====
section
/-! SUPPORT. What the decoder's parts answer: which TICK fields it accepts, and the opcode and fields of an encoded
command. -/

namespace Sys2Proof

theorem tickReject_eq_none_iff (cRx : Nat) (r a : Bool) (n : BitVec 7) :
    tickReject cRx a n = none ↔ (Instr.tick r a n).wf cRx = true := by
  unfold tickReject Instr.wf
  cases a <;> simp
  split <;> simp_all

/-- A word equals another when their 16 bits agree. -/
theorem word_ext {v w : Word} (h : ∀ i < 16, v.getLsbD i = w.getLsbD i) : v = w :=
  BitVec.eq_of_getLsbD_eq h

theorem getLsbD_extract {w : Word} {start len i : Nat} {v : BitVec len} (h : w.extractLsb' start len = v)
    (hi : i < len) : w.getLsbD (start + i) = v.getLsbD i := by
  rw [← h]; simp [hi]

theorem opcodeOf_encode (i : Instr) : opcodeOf (encode i) =
    match i with
    | .put _ => 1#4
    | .putt _ => 2#4
    | .get => 3#4
    | .pkt _ => 4#4
    | .config => 5#4
    | .tick _ _ _ => 8#4 := by
  cases i <;> unfold encode opcodeOf <;> first | rfl | skip
  all_goals
    apply BitVec.eq_of_getLsbD_eq
    intro i hi
    interval_cases i <;> simp

/-- A decoded word, with the opcode and the format checks it passed. -/
theorem decode_ok_cases {cRx : Nat} {p : Port} {w : Word} {i : Instr} (h : decode cRx p w = .ok i) :
    (p = .command ∧ opcodeOf w = 1#4 ∧ w.extractLsb' 8 4 = 0#4 ∧ i = .put (w.extractLsb' 0 8)) ∨
    (p = .command ∧ opcodeOf w = 2#4 ∧ w.extractLsb' 8 4 = 0#4 ∧ i = .putt (w.extractLsb' 0 8)) ∨
    (p = .command ∧ opcodeOf w = 3#4 ∧ operandOf w = 0#12 ∧ i = .get) ∨
    (p = .command ∧ opcodeOf w = 4#4 ∧ i = .pkt (operandOf w)) ∨
    (p = .command ∧ opcodeOf w = 5#4 ∧ operandOf w = 0#12 ∧ i = .config) ∨
    (p = .tick ∧ opcodeOf w = 8#4 ∧ w.extractLsb' 7 3 = 0#3 ∧
      tickReject cRx (w.getLsbD 10) (w.extractLsb' 0 7) = none ∧
      i = .tick (w.getLsbD 11) (w.getLsbD 10) (w.extractLsb' 0 7)) := by
  unfold decode decodeFormat at h
  generalize opcodeOf w = op at h ⊢
  obtain ⟨⟨k, hk⟩⟩ := op
  interval_cases k <;> simp only [portOf, BitVec.toNat_ofFin] at h <;> try contradiction
  all_goals
    split at h
    · rename_i hp
      subst hp
      revert h
      simp only [decodeB, decodeZ, decodeL, decodeT]
      first
        | (split <;> intro h <;> simp_all <;> split at h <;> simp_all)
        | (intro h; simp_all)
    · contradiction

end Sys2Proof
end

