-- ==== Sys2Proof/Laws/PerInstr.lean ====
section
/-! SUPPORT. A fact about every instruction as syntax: the word of a command lies in its row of spec/opcode_table.json. -/

namespace Sys2Proof.Laws

/-- The encoded word, under the row's mask, is the row's match (30_encoding.md R64 to R69). -/
def EncodesIntoRow.Statement (i : Instr) : Prop := encode i &&& i.row.2 = i.row.1

theorem EncodesIntoRow.put (b : Byte) : EncodesIntoRow.Statement (.put b) := by
  refine word_ext fun i hi => ?_
  interval_cases i <;> simp [encode, Instr.row]

theorem EncodesIntoRow.putt (b : Byte) : EncodesIntoRow.Statement (.putt b) := by
  refine word_ext fun i hi => ?_
  interval_cases i <;> simp [encode, Instr.row]

theorem EncodesIntoRow.get : EncodesIntoRow.Statement .get := by unfold EncodesIntoRow.Statement; decide

theorem EncodesIntoRow.pkt (len : BitVec 12) : EncodesIntoRow.Statement (.pkt len) := by
  refine word_ext fun i hi => ?_
  interval_cases i <;> simp [encode, Instr.row]

theorem EncodesIntoRow.config : EncodesIntoRow.Statement .config := by unfold EncodesIntoRow.Statement; decide

theorem EncodesIntoRow.tick (r a : Bool) (n : BitVec 7) : EncodesIntoRow.Statement (.tick r a n) := by
  refine word_ext fun i hi => ?_
  interval_cases i <;> simp [encode, Instr.row]

end Sys2Proof.Laws
end

