-- ==== Sys2Proof/Laws/Queue.lean ====
section
/-! SUPPORT. What a put, a micro-step and a GET can do (40_queue_ops.md R75 to R87). -/

namespace Sys2Proof.Machine

theorem State.finishIfDone_of_pending {s : State} (h : s.mainPend ≠ []) : s.finishIfDone = s := by
  simp [State.finishIfDone, h]

theorem State.finishIfDone_of_done {s : State} (h : s.mainPend = []) : s.finishIfDone = s.advanceIp := by
  simp [State.finishIfDone, h]

/-- A put appends on a queue with room, and only there. -/
theorem putByte_eq_some {b : Byte} {s t : State} : putByte b s = some t ↔
    s.txqCount.toNat < s.cfg.cTx ∧
      t = (s.store .tx s.txqCount.toNat [b]).setTxq (s.txqCount + 1#7) s.txqReject s.txqZlp := by
  unfold putByte
  split
  · simp [*, eq_comm]
  · simp [*]

theorem putByte_eq_none {b : Byte} {s : State} : putByte b s = none ↔ s.cfg.cTx ≤ s.txqCount.toNat := by
  unfold putByte
  split <;> simp <;> omega

/-- A put on a full queue holds: nothing changes (R77). -/
theorem runMicroStep_hold {s : State} {b : Byte} {rest : List MicroStep} (hp : s.mainPend = .putByte b :: rest)
    (h : s.cfg.cTx ≤ s.txqCount.toNat) : runMicroStep s = s := by
  simp [runMicroStep, hp, putByte_eq_none.2 h]

/-- A put on a queue with room appends, and is then done (R75, R76). -/
theorem runMicroStep_put {s : State} {b : Byte} {rest : List MicroStep} (hp : s.mainPend = .putByte b :: rest)
    (h : s.txqCount.toNat < s.cfg.cTx) : runMicroStep s =
      ((((s.store .tx s.txqCount.toNat [b]).setTxq (s.txqCount + 1#7) s.txqReject s.txqZlp).setPend
        rest).finishIfDone) := by
  simp [runMicroStep, hp, putByte_eq_some.2 ⟨h, rfl⟩]

/-- A micro-step with nothing pending does nothing. -/
theorem runMicroStep_nil {s : State} (hp : s.mainPend = []) : runMicroStep s = s := by
  simp [runMicroStep, hp]

/-- The batch after a put is the batch before it and the byte put. -/
theorem State.txBatch_put (s : State) (b : Byte) (r : BitVec 3) (z : Bool) (h : s.txqCount.toNat < 127) :
    ((s.store .tx s.txqCount.toNat [b]).setTxq (s.txqCount + 1#7) r z).txBatch = s.txBatch ++ [b] := by
  have hc : (s.txqCount + 1#7).toNat = s.txqCount.toNat + 1 := by
    simp [BitVec.toNat_add]; omega
  simp only [State.txBatch, State.setTxq_txqCount, hc, List.range_succ, List.map_append, List.map_cons,
    List.map_nil]
  congr 1
  · refine List.map_congr_left fun i hi => ?_
    have := List.mem_range.1 hi
    rw [State.setTxq_byteAt, State.byteAt_store_self, if_neg (by omega)]
  · rw [State.setTxq_byteAt, State.byteAt_store_self, if_pos (by simp)]; simp

/-- What a GET can answer (R85, R87). -/
theorem execGet_cases {s : State} {o : Host.Outcome State Fault Refusal} (h : execGet s = o) :
    (s.rxqCursor.toNat < s.rxqCount.toNat ∧ s.rxqCursor.toNat < s.cfg.cRx ∧
      o = .next (((s.setRes (getResult (s.byteAt .rx s.rxqCursor.toNat))).setRxq s.rxqCount
        (s.rxqCursor + 1#7)).finishIfDone)) ∨
    (s.rxqCursor.toNat < s.rxqCount.toNat ∧ s.cfg.cRx ≤ s.rxqCursor.toNat ∧
      o = .fault (.bufferIndex .rx s.rxqCursor.toNat)) ∨
    (s.rxqCount.toNat ≤ s.rxqCursor.toNat ∧ o = .next (s.setRes s.cfg.noData).finishIfDone) := by
  subst h
  unfold execGet
  split
  · split
    · exact .inl ⟨‹_›, ‹_›, rfl⟩
    · exact .inr (.inl ⟨‹_›, by omega, rfl⟩)
  · exact .inr (.inr ⟨by omega, rfl⟩)

end Sys2Proof.Machine
end

