-- ==== Sys2Proof/Laws/Tick.lean ====
section
/-! SUPPORT. What the two sides of a tick can do (41_tick.md R94 to R101). -/

namespace Sys2Proof.Machine

/-- The TX side idles, flushes, counts a reject or discards. -/
theorem txSide_cases {r : Bool} {s t : State} (h : txSide r s = .ok t) :
    (s.txPending = false ∧ t = s) ∨
    (s.txPending = true ∧ r = true ∧ s.txqCount.toNat ≤ s.cfg.cTx ∧
      t = (s.record (.txPacket s.txBatch)).setTxq 0#7 0#3 s.flushZlp) ∨
    (s.txPending = true ∧ r = false ∧ s.txqReject.toNat + 1 ≤ s.cfg.maxReject ∧
      t = s.setTxq s.txqCount (BitVec.ofNat 3 (s.txqReject.toNat + 1)) s.txqZlp) ∨
    (s.txPending = true ∧ r = false ∧ s.cfg.maxReject < s.txqReject.toNat + 1 ∧
      t = (s.record (.txDiscard s.txqCount.toNat)).setTxq 0#7 0#3 s.discardZlp) := by
  unfold txSide flushTx rejectTx discardTx at h
  cases hp : s.txPending <;> cases r <;> simp only [hp, if_true, if_false, Bool.false_eq_true] at h
  · exact .inl ⟨rfl, (Except.ok.inj h).symm⟩
  · exact .inl ⟨rfl, (Except.ok.inj h).symm⟩
  · split at h
    · exact .inr (.inr (.inr ⟨rfl, rfl, ‹_›, (Except.ok.inj h).symm⟩))
    · exact .inr (.inr (.inl ⟨rfl, rfl, by omega, (Except.ok.inj h).symm⟩))
  · split at h
    · exact .inr (.inl ⟨rfl, rfl, ‹_›, (Except.ok.inj h).symm⟩)
    · contradiction

/-- The TX side stops only where the count exceeds the capacity. -/
theorem txSide_error {r : Bool} {s : State} {f : Fault} (h : txSide r s = .error f) :
    s.cfg.cTx < s.txqCount.toNat ∧ f = .bufferIndex .tx s.cfg.cTx := by
  unfold txSide flushTx at h
  split at h
  · split at h
    · split at h
      · contradiction
      · exact ⟨by omega, (Except.error.inj h).symm⟩
    · contradiction
  · contradiction

/-- The RX side refills a drained queue when there is data, and else does nothing. -/
theorem rxSide_cases (a : Bool) (n : BitVec 7) (s : State) :
    (s.rxqCursor = s.rxqCount ∧ a = true ∧
      rxSide a n s = (s.store .rx 0 (s.batchBytes n.toNat)).setRxq n 0#7) ∨
    ((s.rxqCursor ≠ s.rxqCount ∨ a = false) ∧ rxSide a n s = s) := by
  unfold rxSide State.rxDrained refillRx
  by_cases h : s.rxqCursor = s.rxqCount <;> cases a <;> simp [h]

/-- A tick that answers a next state had legal fields, and took its TX side and then its RX side. -/
theorem execTick_next {r a : Bool} {n : BitVec 7} {s u : State} (h : execTick r a n s = .next u) :
    (Instr.tick r a n).wf s.cfg.cRx = true ∧ ∃ t, txSide r s = .ok t ∧ u = (rxSide a n t).countDraw := by
  unfold execTick at h
  split at h
  · contradiction
  · rename_i hr
    split at h
    · contradiction
    · rename_i t ht
      exact ⟨(tickReject_eq_none_iff _ r _ _).1 hr, t, ht, (Host.Outcome.next.inj h).symm⟩

/-- A tick with legal fields, on a TX side that goes on. -/
theorem execTick_of_ok {r a : Bool} {n : BitVec 7} {s t : State} (hw : (Instr.tick r a n).wf s.cfg.cRx = true)
    (ht : txSide r s = .ok t) : execTick r a n s = .next (rxSide a n t).countDraw := by
  simp [execTick, (tickReject_eq_none_iff _ r _ _).2 hw, ht]

/-- The TX side goes on whenever the count is within the capacity. -/
theorem txSide_ok {r : Bool} {s : State} (h : s.txqCount.toNat ≤ s.cfg.cTx) : ∃ t, txSide r s = .ok t := by
  cases ht : txSide r s with
  | ok t => exact ⟨t, rfl⟩
  | error f => have := (txSide_error ht).1; omega

@[simp] theorem State.batchBytes_length (s : State) (n : Nat) : (s.batchBytes n).length = n := by
  simp [State.batchBytes]

end Sys2Proof.Machine
end

