-- ==== Sys2Proof/Laws/Step.lean ====
section
/-! SUPPORT. Everything a step can do: the one inversion lemma that claims about every step start from. -/

namespace Sys2Proof.Machine

/-- A step that answers a next state was one of these: no turn left; MAIN with no command to issue; MAIN issuing the
command at `ip`; MAIN's micro-step; a TICK; a reset. -/
theorem step_next_cases {s t : State} (h : step s = .next t) :
    (s.turns = [] ∧ t = s) ∨
    (∃ rest, s.turns = .main :: rest ∧ s.mainPend = [] ∧ s.cmds[s.ip]? = none ∧ t = s.setTurns rest) ∨
    (∃ rest c i, s.turns = .main :: rest ∧ s.mainPend = [] ∧ s.cmds[s.ip]? = some c ∧
      decode s.cfg.cRx .command c.word = .ok i ∧ exec i ((s.setTurns rest).setOutLane c.lane) = .next t) ∨
    (∃ rest, s.turns = .main :: rest ∧ s.mainPend ≠ [] ∧ t = runMicroStep (s.setTurns rest)) ∨
    (∃ rest w lane r a n, s.turns = .tick w lane :: rest ∧ decode s.cfg.cRx .tick w = .ok (.tick r a n) ∧
      execTick r a n ((s.setTurns rest).setRxLane lane) = .next t) ∨
    (∃ rest c, s.turns = .rst c :: rest ∧ t = (s.setTurns rest).assertRst c) := by
  unfold step at h
  split at h
  · exact .inl ⟨‹_›, (Host.Outcome.next.inj h).symm⟩
  · rename_i turn rest ht
    cases turn with
    | main =>
      simp only [takeTurn, mainStep] at h
      split at h
      · rename_i hp
        split at h
        · exact .inr (.inl ⟨rest, ht, hp, ‹_›, (Host.Outcome.next.inj h).symm⟩)
        · rename_i c hc
          unfold issueCommand at h
          split at h
          · contradiction
          · exact .inr (.inr (.inl ⟨rest, c, _, ht, hp, hc, ‹_›, h⟩))
      · exact .inr (.inr (.inr (.inl ⟨rest, ht, ‹_›, (Host.Outcome.next.inj h).symm⟩)))
    | tick w lane =>
      simp only [takeTurn, tickStep] at h
      split at h
      · contradiction
      · rename_i i hd
        rcases decode_ok_cases hd with h' | h' | h' | h' | h' | ⟨-, -, -, -, rfl⟩
        iterate 5 exact absurd h'.1 (by decide)
        exact .inr (.inr (.inr (.inr (.inl ⟨rest, w, lane, _, _, _, ht, hd, h⟩))))
    | rst c => exact .inr (.inr (.inr (.inr (.inr ⟨rest, c, ht, (Host.Outcome.next.inj h).symm⟩))))

/-- A command word never decodes to a TICK. -/
theorem decode_command_ne_tick {cRx : Nat} {w : Word} {r a : Bool} {n : BitVec 7} :
    decode cRx .command w ≠ .ok (.tick r a n) := by
  intro h
  rcases decode_ok_cases h with ⟨_, _, _, h⟩ | ⟨_, _, _, h⟩ | ⟨_, _, _, h⟩ | ⟨_, _, h⟩ | ⟨_, _, _, h⟩ | ⟨h, _⟩ <;>
    contradiction

end Sys2Proof.Machine
end

