-- ==== Sys2Proof/Laws/Text.lean ====
section
/-! SUPPORT. The decimal digits of a number (42_accountant.md R115), and the lines as bytes (R113, R114). -/

namespace Sys2Proof.Machine

/-- Fuel beyond the value changes nothing. -/
theorem decDigits_fuel (f g v : Nat) (hf : v < f) (hg : v < g) : decDigits f v = decDigits g v := by
  induction f generalizing g v with
  | zero => omega
  | succ f ih =>
    obtain ⟨g, rfl⟩ : ∃ k, g = k + 1 := ⟨g - 1, by omega⟩
    simp only [decDigits]
    split
    · rfl
    · rw [ih g (v / 10) (by omega) (by omega)]

theorem dec_of_lt {v : Nat} (h : v < 10) : dec v = [BitVec.ofNat 8 (0x30 + v)] := by
  simp [dec, decDigits, h, Nat.mod_eq_of_lt h]

theorem dec_of_ge {v : Nat} (h : 10 ≤ v) : dec v = dec (v / 10) ++ [BitVec.ofNat 8 (0x30 + v % 10)] := by
  conv => lhs; rw [dec, decDigits, if_neg (by omega)]
  rw [decDigits_fuel v (v / 10 + 1) (v / 10) (by omega) (by omega), dec]

/-- Every byte of a decimal is an ASCII digit. -/
theorem dec_digits (v : Nat) : ∀ b ∈ dec v, 0x30 ≤ b.toNat ∧ b.toNat ≤ 0x39 := by
  induction v using Nat.strong_induction_on with
  | _ v ih =>
    have key : ∀ d < 10, ∀ b ∈ [BitVec.ofNat 8 (0x30 + d)], 0x30 ≤ b.toNat ∧ b.toNat ≤ 0x39 := by decide
    rcases Nat.lt_or_ge v 10 with h | h
    · rw [dec_of_lt h]; exact key v h
    · rw [dec_of_ge h]
      intro b hb
      rcases List.mem_append.1 hb with hb | hb
      · exact ih (v / 10) (by omega) b hb
      · exact key (v % 10) (by omega) b hb

/-- A text without LF goes out byte for byte. -/
theorem textSteps_of_no_lf (t : List Byte) (h : ∀ b ∈ t, b ≠ 0x0A#8) : textSteps t = t.map .putByte := by
  induction t with
  | nil => rfl
  | cons b t ih =>
    simp only [List.mem_cons, forall_eq_or_imp] at h
    simp only [textSteps, List.flatMap_cons, stringPath, h.1, if_false] at ih ⊢
    rw [ih h.2]; rfl

theorem textSteps_append (t u : List Byte) : textSteps (t ++ u) = textSteps t ++ textSteps u := by
  simp [textSteps]

theorem dec_no_lf (v : Nat) : ∀ b ∈ dec v, b ≠ 0x0A#8 := by
  intro b hb h
  have := (dec_digits v b hb).1
  rw [h] at this; exact absurd this (by decide)

theorem textSteps_dec (v : Nat) : textSteps (dec v) = (dec v).map .putByte := textSteps_of_no_lf _ (dec_no_lf v)

/-- The mismatch line as it goes into the queue (R113). -/
theorem textSteps_mismatchText (k total : Nat) : textSteps (mismatchText k total) =
    (dec k ++ [0x20#8, 0x2D#8, 0x20#8] ++ dec total ++ [0x42#8, 0x0D#8, 0x0A#8]).map .putByte := by
  simp only [mismatchText, textSteps_append, textSteps_dec, List.map_append]; rfl

/-- The illegal-packet line as it goes into the queue (R114). -/
theorem textSteps_illegalText (k len : Nat) : textSteps (illegalText k len) =
    (dec k ++ [0x20#8, 0x2D#8, 0x20#8, 0x49#8, 0x6C#8, 0x6C#8, 0x65#8, 0x67#8, 0x61#8, 0x6C#8, 0x20#8] ++ dec len ++
      [0x42#8, 0x0D#8, 0x0A#8]).map .putByte := by
  simp only [illegalText, textSteps_append, textSteps_dec, List.map_append]; rfl

end Sys2Proof.Machine
end

