-- ==== Sys2Proof/Tests/Slice0.lean ====
section
/-! SUPPORT. Tests: words written out from 30_encoding.md, single steps from the vectors of 95_test_vectors.md section 3,
and, for each statement with hypotheses, a concrete state and operands that meet them. -/

namespace Sys2Proof.Tests

open Sys2Proof Sys2Proof.Machine

/-- The parameters of 95_test_vectors.md section 3.5: the defaults with TARGET = 132. -/
def cfg132 : Config := { Config.default with target := 132 }

/-- The reset state with those parameters. -/
def base : State := State.resetWith cfg132

/-- A block with one byte of TX queue, which no stall outlasts, and that byte pending: full, and MAIN holding on a put. -/
def tiny : State :=
  { State.resetWith { cfg132 with cTx := 1, maxReject := 0 } with
    txbuf := [(0, 0x41#8)], txqCount := 1#7, mainPend := [.putByte 0x42#8] }

/-- A block with the RX batch of V-GET-7. -/
def rxCrLf : State := { base with rxbuf := [(0, 0x0D#8), (1, 0x0A#8)], rxqCount := 2#7 }

/-! ### WellFormed and Decode (30_encoding.md R69 to R71; 95_test_vectors.md section 2) -/

theorem test_wf_admits_legal_ticks :
    (Instr.tick true true 64#7).wf 64 = true ∧ (Instr.tick false false 0#7).wf 64 = true := by decide

theorem test_wf_refuses_batch_without_data :
    (Instr.tick true false 1#7).wf 64 = false ∧ decode 64 .tick 0x8001#16 = .error .batchWithoutData := by decide

theorem test_wf_refuses_batch_too_long :
    (Instr.tick true true 65#7).wf 64 = false ∧ decode 64 .tick 0x8441#16 = .error .batchTooLong := by decide

/-- Word 0001 0000 0110 0001: OP = 1, bits 11:8 zero, BYTE = 0x61 (R64). -/
theorem test_decode_put :
    decode 64 .command 0b0001000001100001#16 = .ok (.put 0x61#8) ∧ decode 64 .command 0x10FF#16 = .ok (.put 0xFF#8) ∧
      decode 64 .command 0x1161#16 = .error .nonzeroField := by decide

/-- Word 0010 0000 0000 1010: OP = 2, BYTE = 0x0A (R65). -/
theorem test_decode_putt : decode 64 .command 0b0010000000001010#16 = .ok (.putt 0x0A#8) := by decide

/-- Word 0011 0000 0000 0000: OP = 3, no operand (R66). -/
theorem test_decode_get :
    decode 64 .command 0b0011000000000000#16 = .ok .get ∧
      decode 64 .command 0x3001#16 = .error .nonzeroField := by decide

/-- Word 0100 0000 0100 0000: OP = 4, LEN = 64 (R67). -/
theorem test_decode_pkt :
    decode 64 .command 0b0100000001000000#16 = .ok (.pkt 64#12) ∧ decode 64 .command 0x4000#16 = .ok (.pkt 0#12) ∧
      decode 64 .command 0x4041#16 = .ok (.pkt 65#12) ∧ decode 64 .command 0x4FFF#16 = .ok (.pkt 4095#12) := by decide

/-- Word 0101 0000 0000 0000: OP = 5, no operand (R68). -/
theorem test_decode_config :
    decode 64 .command 0b0101000000000000#16 = .ok .config ∧
      decode 64 .command 0x5800#16 = .error .nonzeroField := by decide

/-- Word 1000 11 000 0000010: OP = 8, R = 1, A = 1, N = 2 (R69). -/
theorem test_decode_tick :
    decode 64 .tick 0b1000110000000010#16 = .ok (.tick true true 2#7) ∧
      decode 64 .tick 0x8000#16 = .ok (.tick false false 0#7) ∧ decode 64 .tick 0x8800#16 = .ok (.tick true false 0#7) ∧
      decode 64 .tick 0x8440#16 = .ok (.tick false true 64#7) ∧
      decode 64 .tick 0x8080#16 = .error .nonzeroField := by decide

theorem test_decode_reserved :
    [0x0000#16, 0x6000#16, 0x7000#16, 0x9000#16, 0xF000#16].map (decode 64 .command) =
        List.replicate 5 (.error .reservedOpcode) ∧
      decode 64 .command 0x8800#16 = .error .wrongPort ∧ decode 64 .tick 0x3000#16 = .error .wrongPort := by decide

/-- The encoder's words are those of the same examples. -/
theorem test_encode :
    encode (.put 0x61#8) = 0x1061#16 ∧ encode (.putt 0x0A#8) = 0x200A#16 ∧ encode (.pkt 64#12) = 0x4040#16 ∧
      encode (.tick true true 2#7) = 0x8C02#16 := by decide

theorem test_table_words :
    decodeTableWord 16 0x1000 = some (.put 0#8) ∧ decodeTableWord 16 0x8400 = some (.tick false true 0#7) ∧
      decodeTableWord 16 0x0000 = none := ⟨rfl, rfl, rfl⟩

/-- The word placed by `withFetchWord` is the one the next step runs. -/
theorem test_placed_word_runs :
    step (State.reset.withFetchWord 16 0x5000) = exec .config (State.reset.withFetchWord 16 0x5000 |>.setTurns []) ∧
    step (State.reset.withFetchWord 16 0x8800) = exec (.tick true false 0#7) State.reset := ⟨rfl, rfl⟩

/-! ### Single steps -/

/-- V-PUT-2: with 63 bytes queued the put succeeds at index 63. -/
theorem test_put_fills_the_queue : ∃ t,
    step { base with turns := [.main], txqCount := 63#7, mainPend := [.putByte 0x42#8] } = .next t ∧
      t.txqCount = 64#7 ∧ t.byteAt .tx 63 = 0x42#8 ∧ t.ip = 1 := ⟨_, rfl, rfl, rfl, rfl⟩

/-- V-PUT-3: with 64 bytes queued MAIN holds. -/
theorem test_put_holds_when_full :
    step { base with turns := [.main], txqCount := 64#7, mainPend := [.putByte 0x43#8] } =
      .next { base with txqCount := 64#7, mainPend := [.putByte 0x43#8] } := rfl

/-- V-PUTT-2, its issue. -/
theorem test_putt_lf : ∃ t, exec (.putt 0x0A#8) base = .next t ∧
    t.mainPend = [.putByte 0x0D#8, .putByte 0x0A#8] ∧ t.ip = 0 := ⟨_, rfl, rfl, rfl⟩

/-- V-PUTT-3, its issue. -/
theorem test_putt_cr : ∃ t, exec (.putt 0x0D#8) base = .next t ∧ t.mainPend = [.putByte 0x0D#8] := ⟨_, rfl, rfl⟩

/-- V-GET-2: CR is read as LF and stays in the buffer. -/
theorem test_get_cr : ∃ t, exec .get { base with rxbuf := [(0, 0x0D#8)], rxqCount := 1#7 } = .next t ∧
    t.res = 0x000A#16 ∧ t.rxqCursor = 1#7 ∧ t.rxbuf = [(0, 0x0D#8)] := ⟨_, rfl, rfl, rfl, rfl⟩

/-- V-GET-4: nothing unread. -/
theorem test_get_no_data : ∃ t,
    exec .get { base with rxbuf := [(0, 0x61#8)], rxqCount := 1#7, rxqCursor := 1#7 } = .next t ∧
      t.res = 0xFFFF#16 ∧ t.rxqCursor = 1#7 := ⟨_, rfl, rfl, rfl⟩

/-- V-T-12: a flush and a refill in one tick. -/
theorem test_tick_flush_and_refill : ∃ t,
    step { base with turns := [.tick 0x8C01#16 [0x62#8]], txbuf := [(0, 0x2A#8)], txqCount := 1#7 } = .next t ∧
      t.hist = [.txPacket [0x2A#8]] ∧ t.txqCount = 0#7 ∧ t.txqZlp = false ∧ t.byteAt .rx 0 = 0x62#8 ∧
      t.rxqCount = 1#7 ∧ t.rxqCursor = 0#7 := ⟨_, rfl, rfl, rfl, rfl, rfl, rfl, rfl⟩

/-- V-T-5, its last tick: the fifth reject discards. -/
theorem test_tick_fifth_reject_discards : ∃ t,
    exec (.tick false false 0#7) { base with txqCount := 3#7, txqReject := 4#3 } = .next t ∧
      t.hist = [.txDiscard 3] ∧ t.txqCount = 0#7 ∧ t.txqReject = 0#3 := ⟨_, rfl, rfl, rfl, rfl⟩

/-- V-P-3: the mismatch line `"0 - 67B"` CR LF and the marker. -/
theorem test_pkt_mismatch : ∃ t, exec (.pkt 3#12) { base with accRxSize := 64 } = .next t ∧
    t.mainPend = [0x30#8, 0x20#8, 0x2D#8, 0x20#8, 0x36#8, 0x37#8, 0x42#8, 0x0D#8, 0x0A#8, 0x2A#8].map .putByte ∧
    t.accRxSize = 0 ∧ t.accRxCount = 1 ∧ t.hist = [.sizeMismatch 0 67] := ⟨_, rfl, by decide, by decide, by decide, by decide⟩

/-- V-P-5: the line `"2 - Illegal 65B"` CR LF, and no marker. -/
theorem test_pkt_illegal : ∃ t, exec (.pkt 65#12) { base with accRxSize := 128, accRxCount := 2 } = .next t ∧
    t.mainPend = [0x32#8, 0x20#8, 0x2D#8, 0x20#8, 0x49#8, 0x6C#8, 0x6C#8, 0x65#8, 0x67#8, 0x61#8, 0x6C#8, 0x20#8, 0x36#8,
      0x35#8, 0x42#8, 0x0D#8, 0x0A#8].map .putByte ∧
    t.accRxSize = 0 ∧ t.accRxCount = 3 ∧ t.hist = [.illegalPacket 2 65] := ⟨_, rfl, by decide, by decide, by decide, by decide⟩

/-- V-C-1. -/
theorem test_config_zeroes_size : ∃ t, exec .config { base with accRxSize := 128, accRxCount := 7 } = .next t ∧
    t.accRxSize = 0 ∧ t.accRxCount = 7 ∧ t.hist = [.outEpEnable] := ⟨_, rfl, rfl, rfl, rfl⟩

/-- A reserved word is refused, and MAIN with no command left takes no step. -/
theorem test_refused_and_idle :
    step { base with turns := [.main], cmds := [⟨0x0000#16, []⟩] } = .refused (.word .reservedOpcode) ∧
      step { base with turns := [.main] } = .next base := ⟨rfl, rfl⟩

/-! ### The assembler syntax (30_encoding.md R73, R74) -/

/-- Lines of the listings P3, P1 and P5 of 95_test_vectors.md section 4 stand for the words given there. -/
theorem test_asm_lines :
    parseLine "PUT '*' ; the marker".toList = some [.command ⟨0x102A#16, []⟩] ∧
    parseLine "PUT 0x61".toList = some [.command ⟨0x1061#16, []⟩] ∧
    parseLine "TICK R=1 A=1 [0x61, 0x0D]".toList = some [.tick 0x8C02#16 [0x61#8, 0x0D#8]] ∧
    parseLine "TICK R=0 A=0".toList = some [.tick 0x8000#16 []] ∧
    parseLine "PKT 64".toList = some [.command ⟨0x4040#16, []⟩] ∧
    parseLine "PKT 4096".toList = none ∧ parseLine "CONFIG".toList = some [.command ⟨0x5000#16, []⟩] := by decide

/-- P5: `PUTS "hi\n"` is PUTT 'h', PUTT 'i' and PUTT LF. -/
theorem test_asm_puts :
    parseLine "PUTS \"hi\\n\"".toList =
      some [.command ⟨0x2068#16, []⟩, .command ⟨0x2069#16, []⟩, .command ⟨0x200A#16, []⟩] := by decide

theorem test_asm_putdec :
    parseLine "PUTDEC 67".toList = some [.command ⟨0x2036#16, []⟩, .command ⟨0x2037#16, []⟩] := by decide

theorem test_asm_payload :
    parseLine "PKT 65 ; payload [1, 0xFF]".toList = some [.command ⟨0x4041#16, [0x01#8, 0xFF#8]⟩] := by decide

/-! ### Witnesses: the hypotheses of each statement are met -/

theorem witness_DecodeOfEncodeIsTheCommand :
    (Instr.put 0xFF#8).wf 64 = true ∧ (Instr.pkt 4095#12).wf 64 = true ∧ (Instr.tick true true 64#7).wf 64 = true ∧
      (Instr.tick true false 0#7).wf 1 = true := by decide

theorem witness_EncodeOfDecodeIsTheWord :
    decode 64 .command 0x1061#16 = .ok (.put 0x61#8) ∧ decode 64 .tick 0x8C40#16 = .ok (.tick true true 64#7) := by decide

/-- One word for each of the first three clauses, and a state for the fourth. -/
theorem witness_ReservedAndMisroutedWordsAreRefused :
    (0xFFFF#16).toNat / 4096 ∈ [0, 6, 7, 9, 10, 11, 12, 13, 14, 15] ∧ (0x8FFF#16).toNat / 4096 = 8 ∧
      (0x5000#16).toNat / 4096 ∈ [1, 2, 3, 4, 5] ∧
      ({ base with cmds := [⟨0x6000#16, []⟩] } : State).mainPend = [] ∧
      ({ base with cmds := [⟨0x6000#16, []⟩] } : State).cmds[0]? = some ⟨0x6000#16, []⟩ := by decide

/-- One word for each of the three cases of R71. -/
theorem witness_MalformedWordsAreRefusedExactly :
    ((0x1100#16).toNat / 4096 ∈ [1, 2] ∧ (0x1100#16).toNat / 256 % 16 ≠ 0) ∧
      ((0x5001#16).toNat / 4096 ∈ [3, 5] ∧ (0x5001#16).toNat % 4096 ≠ 0) ∧
      ((0x8080#16).toNat / 4096 = 8 ∧ (0x8080#16).toNat / 128 % 8 ≠ 0) ∧
      ((0x8001#16).toNat / 4096 = 8 ∧ (0x8001#16).toNat / 128 % 8 = 0 ∧ (0x8001#16).toNat / 1024 % 2 = 0 ∧
        (0x8001#16).toNat % 128 ≠ 0) ∧
      ((0x8441#16).toNat / 4096 = 8 ∧ (0x8441#16).toNat / 128 % 8 = 0 ∧
        ((0x8441#16).toNat / 1024 % 2 = 0 → (0x8441#16).toNat % 128 = 0) ∧ 64 < (0x8441#16).toNat % 128) := by decide

theorem witness_PseudoInstructionsLoadTheirText :
    parseLine "PUT 255".toList = some [.command ⟨0x10FF#16, []⟩] ∧
      ListingStep.command ⟨0x10FF#16, []⟩ ∈ [ListingStep.command ⟨0x10FF#16, []⟩] := by decide

theorem witness_MainStepRunsTheCommandAtIp :
    let s : State := { base with turns := [.main], cmds := [⟨0x4041#16, [0x01#8]⟩] }
    s.turns = [.main] ∧ s.mainPend = [] ∧ s.cmds[s.ip]? = some ⟨0x4041#16, [0x01#8]⟩ ∧
      decode s.cfg.cRx .command 0x4041#16 = .ok (.pkt 65#12) := by decide

theorem witness_TickPortStepRunsTheTick :
    let s : State := { base with turns := [.tick 0x8C01#16 [0x62#8]] }
    s.turns = [.tick 0x8C01#16 [0x62#8]] ∧ decode s.cfg.cRx .tick 0x8C01#16 = .ok (.tick true true 1#7) := by decide

/-- With one place left, and with none. -/
theorem witness_MicroStepAppendsOrHolds :
    let s : State := { base with turns := [.main], mainPend := [.putByte 0x42#8], txqCount := 63#7 }
    (s.turns = [.main] ∧ s.mainPend = [.putByte 0x42#8] ∧ s.cfg.cTx ≤ 127 ∧ s.txqCount.toNat < s.cfg.cTx) ∧
      s.cfg.cTx ≤ ({ s with txqCount := 64#7 } : State).txqCount.toNat := by decide

theorem witness_HoldIsLiftedOnlyByFlushOrDiscard :
    let s : State := { tiny with turns := [.tick 0x8800#16 []] }
    s.txqCount.toNat = s.cfg.cTx ∧ (∀ c rest, s.turns ≠ .rst c :: rest) ∧ ∃ t, step s = .next t :=
  ⟨rfl, (by intro c rest h; cases h), _, rfl⟩

theorem witness_HoldNeverEndsWithoutTicks :
    let s : State := { tiny with turns := [.main, .main, .main] }
    s.mainPend = [.putByte 0x42#8] ∧ s.cfg.cTx ≤ s.txqCount.toNat ∧ s.turns = List.replicate 3 .main ++ [] := by decide

theorem witness_HoldEndsWithinMaxRejectPlusOneTicks :
    let s : State := { tiny with turns := [.main, .tick 0x8000#16 []] }
    s.Inv ∧ s.txqCount.toNat = s.cfg.cTx ∧ s.mainPend ≠ [] ∧ s.turns = [.main, .tick 0x8000#16 []] ++ [] ∧
      (∀ u ∈ [Turn.main, .tick 0x8000#16 []], u = .main ∨ ∃ r a n lane, u = .tick (encode (.tick r a n)) lane ∧
        (Instr.tick r a n).wf s.cfg.cRx = true) ∧
      s.cfg.maxReject + 1 ≤ [Turn.main, .tick 0x8000#16 []].countP (fun u => u matches .tick _ _) := by
  refine ⟨by decide, rfl, by decide, rfl, ?_, by decide⟩
  intro u hu
  rcases List.mem_cons.1 hu with rfl | hu
  · exact .inl rfl
  · rcases List.mem_singleton.1 hu with rfl
    exact .inr ⟨false, false, 0#7, [], by decide, by decide⟩

theorem witness_OnlyRefusedWordsRefuseAStep :
    step { base with turns := [.main], cmds := [⟨0x3001#16, []⟩] } = .refused (.word .nonzeroField) ∧
      step { base with turns := [.tick 0x8001#16 []] } = .refused (.word .batchWithoutData) := ⟨rfl, rfl⟩

/-- With one place left, and with none. -/
theorem witness_PutAppendsItsByteAndCompletes :
    let s : State := { base with turns := [.main, .main], cmds := [⟨encode (.put 0x0A#8), []⟩], txqCount := 63#7 }
    (s.cfg.cTx ≤ 127 ∧ s.turns = [.main, .main] ∧ s.mainPend = [] ∧
      s.cmds[s.ip]? = some ⟨encode (.put 0x0A#8), []⟩ ∧ s.txqCount.toNat < s.cfg.cTx) ∧
      s.cfg.cTx ≤ ({ s with txqCount := 64#7 } : State).txqCount.toNat := by decide

theorem witness_PuttOfOtherBytesIsPut : (0x0D#8) ≠ 0x0A#8 ∧ (0x00#8) ≠ 0x0A#8 := by decide

/-- With exactly two places left. -/
theorem witness_PuttOfLineFeedSendsCrLf :
    let s : State := { base with turns := [.main, .main, .main], cmds := [⟨0x200A#16, []⟩], txqCount := 62#7 }
    s.cfg.cTx ≤ 127 ∧ s.turns = [.main, .main, .main] ∧ s.mainPend = [] ∧ s.cmds[s.ip]? = some ⟨0x200A#16, []⟩ ∧
      s.txqCount.toNat + 2 ≤ s.cfg.cTx := by decide

theorem witness_TickMaySplitCrFromLf :
    let s : State := { base with
      turns := [.main, .main, .main, .tick 0x8800#16 [], .main], cmds := [⟨0x200A#16, []⟩], txqCount := 63#7 }
    s.cfg.cTx ≤ 127 ∧ s.turns = [.main, .main, .main, .tick 0x8800#16 [], .main] ∧ s.mainPend = [] ∧
      s.cmds[s.ip]? = some ⟨0x200A#16, []⟩ ∧ s.txqCount.toNat + 1 = s.cfg.cTx := by decide

/-- Two bytes into the last two places. -/
theorem witness_PutsEnterTheQueueInOrder :
    let s : State := { base with
      turns := [.main, .main, .main, .main], txqCount := 62#7,
      cmds := [⟨encode (.put 0x61#8), []⟩, ⟨encode (.put 0x62#8), []⟩, ⟨0x3000#16, []⟩] }
    s.cfg.cTx ≤ 127 ∧ s.mainPend = [] ∧ s.txqCount.toNat + [0x61#8, 0x62#8].length ≤ s.cfg.cTx ∧
      s.cmds.drop s.ip = [0x61#8, 0x62#8].map (fun b => ⟨encode (.put b), []⟩) ++ [⟨0x3000#16, []⟩] ∧
      s.turns = List.replicate (2 * [0x61#8, 0x62#8].length) .main ++ [] := by decide

theorem witness_PendingTextEntersTheQueueInOrder :
    let s : State := { base with
      turns := [.main, .main], txqCount := 62#7, mainPend := [.putByte 0x61#8, .putByte 0x62#8] }
    [0x61#8, 0x62#8] ≠ [] ∧ s.cfg.cTx ≤ 127 ∧ s.mainPend = [0x61#8, 0x62#8].map .putByte ∧
      s.txqCount.toNat + [0x61#8, 0x62#8].length ≤ s.cfg.cTx ∧
      s.turns = List.replicate [0x61#8, 0x62#8].length .main ++ [] ∧ 1 < [0x61#8, 0x62#8].length := by decide

theorem witness_NonStoringCommandsFrame :
    (∃ t, exec .get base = .next t) ∧ (∃ t, exec .config base = .next t) ∧ (∃ t, exec (.put 0x61#8) base = .next t) ∧
      ∃ t, exec (.putt 0x0A#8) base = .next t := ⟨⟨_, rfl⟩, ⟨_, rfl⟩, ⟨_, rfl⟩, _, rfl⟩

/-- The last unread byte of a full batch, and a drained queue. -/
theorem witness_GetTakesTheNextUnreadByte :
    let s : State := { base with rxqCount := 64#7, rxqCursor := 63#7 }
    (s.mainPend = [] ∧ s.rxqCount.toNat ≤ s.cfg.cRx ∧ s.rxqCursor.toNat < s.rxqCount.toNat) ∧
      s.rxqCount.toNat ≤ ({ s with rxqCursor := 64#7 } : State).rxqCursor.toNat := by decide

theorem witness_DataResultIsNeverNoData :
    let s : State := { base with rxbuf := [(0, 0xFF#8)], rxqCount := 1#7 }
    (s.cfg.Wf ∧ s.rxqCount.toNat ≤ s.cfg.cRx ∧ s.rxqCursor.toNat < s.rxqCount.toNat) ∧
      s.rxqCount.toNat ≤ ({ s with rxqCursor := 1#7 } : State).rxqCursor.toNat := by decide

theorem witness_GetsReturnTheBatchInOrder :
    rxCrLf.rxqCount.toNat ≤ rxCrLf.cfg.cRx ∧ rxCrLf.rxqCursor.toNat + 1 < rxCrLf.rxqCount.toNat := by decide

theorem witness_CrLfPairReadsAsTwoLineFeeds :
    rxCrLf.rxqCount.toNat ≤ rxCrLf.cfg.cRx ∧ rxCrLf.rxqCursor.toNat + 2 ≤ rxCrLf.rxqCount.toNat ∧
      rxCrLf.byteAt .rx rxCrLf.rxqCursor.toNat = 0x0D#8 ∧
      rxCrLf.byteAt .rx (rxCrLf.rxqCursor.toNat + 1) = 0x0A#8 := ⟨by decide, by decide, rfl, rfl⟩

/-- A full queue, and the zero-length packet. -/
theorem witness_FlushSendsTheWholeQueue :
    let s : State := { base with txqCount := 64#7 }
    let z : State := { base with txqZlp := true }
    (Instr.tick true true 64#7).wf s.cfg.cRx = true ∧
      (s.txqCount.toNat ≤ s.cfg.cTx ∧ (0 < s.txqCount.toNat ∨ s.txqZlp = true)) ∧
      (z.txqCount.toNat ≤ z.cfg.cTx ∧ (0 < z.txqCount.toNat ∨ z.txqZlp = true)) := by decide

/-- The fourth failure and the fifth, at the default MAX_REJECT of 4; and a put while a count runs (V-PUT-7). -/
theorem witness_RejectCountsThenDiscards :
    let s : State := { base with txqCount := 2#7, txqReject := 3#3 }
    ((Instr.tick false false 0#7).wf s.cfg.cRx = true ∧ s.cfg.maxReject ≤ 6 ∧ 0 < s.txqCount.toNat ∧
      s.txqReject.toNat + 1 ≤ s.cfg.maxReject) ∧
      s.cfg.maxReject < ({ s with txqReject := 4#3 } : State).txqReject.toNat + 1 ∧
      ∃ t, putByte 0x01#8 s = some t := ⟨by decide, by decide, _, rfl⟩

theorem witness_IdleTxSideChangesNothing :
    (Instr.tick false true 3#7).wf base.cfg.cRx = true ∧ base.txqCount = 0#7 ∧ base.txqZlp = false := by decide

/-- A full batch into a read-out queue, and the empty batch of V-T-10. -/
theorem witness_RefillReplacesADrainedBatch :
    let s : State := { base with rxqCount := 2#7, rxqCursor := 2#7, rxLane := [0x61#8] }
    (Instr.tick true true 64#7).wf s.cfg.cRx = true ∧ (Instr.tick true true 0#7).wf s.cfg.cRx = true ∧
      s.txqCount.toNat ≤ s.cfg.cTx ∧ s.rxqCursor = s.rxqCount ∧ s.rxLane[0]? = some 0x61#8 := by decide

/-- V-T-9, one byte unread; and V-T-11, no batch. -/
theorem witness_UndrainedRxSideDoesNothing :
    let s : State := { base with rxqCount := 2#7, rxqCursor := 1#7 }
    ((Instr.tick false true 1#7).wf s.cfg.cRx = true ∧ s.txqCount.toNat ≤ s.cfg.cTx ∧ s.rxqCursor ≠ s.rxqCount) ∧
      (Instr.tick false false 0#7).wf s.cfg.cRx = true := by decide

theorem witness_EveryLegalTickCompletes :
    let s : State := { base with turns := [.tick 0x8800#16 []] }
    s.txqCount.toNat ≤ s.cfg.cTx ∧ s.turns = [.tick 0x8800#16 []] ∧
      decode s.cfg.cRx .tick 0x8800#16 = .ok (.tick true false 0#7) := by decide

theorem witness_TickFrame : ∃ t, exec (.tick true true 2#7) { base with txqCount := 3#7 } = .next t := ⟨_, rfl⟩

/-- A queue of one byte, filled and flushed. -/
theorem witness_FullFlushIsFollowedByOneEmptyPacket :
    let s : State := { State.resetWith { cfg132 with cTx := 1 } with
      cmds := [⟨encode (.put 0x55#8), []⟩],
      turns := [.main, .main, .tick 0x8800#16 [], .tick 0x8800#16 [], .tick 0x8800#16 []] }
    s.cfg.Wf ∧ s.mainPend = [] ∧ s.txqCount = 0#7 ∧ [0x55#8].length = s.cfg.cTx ∧
      s.cmds.drop s.ip = [0x55#8].map (fun b => ⟨encode (.put b), []⟩) ++ [] ∧
      s.turns = List.replicate (2 * [0x55#8].length) .main ++
        .tick 0x8800#16 [] :: .tick 0x8800#16 [] :: .tick 0x8800#16 [] :: [] := by decide

/-- With bytes pending, and with only the zero-length packet (V-T-7). -/
theorem witness_StallDiscardsAtMaxRejectPlusOne :
    let s : State := { base with txqCount := 3#7 }
    let z : State := { base with txqZlp := true }
    (s.cfg.maxReject ≤ 6 ∧ s.txqReject = 0#3 ∧ (0 < s.txqCount.toNat ∨ s.txqZlp = true)) ∧
      (z.txqReject = 0#3 ∧ (0 < z.txqCount.toNat ∨ z.txqZlp = true)) ∧ 4 ≤ s.cfg.maxReject := by decide

theorem witness_FullSizePacketAccumulates : base.mainPend = [] ∧ (64#12).toNat = base.cfg.maxPkt := by decide

/-- One byte above MAX_PKT, and the longest length. -/
theorem witness_OversizedPacketEndsTheTransfer :
    base.cfg.maxPkt < (65#12).toNat ∧ base.cfg.maxPkt < (4095#12).toNat := by decide

/-- A total on TARGET (V-P-2), and a total off it with the empty packet (V-P-4). -/
theorem witness_ShortPacketClosesTheTransfer :
    let s : State := { base with accRxSize := 128 }
    (s.mainPend = [] ∧ (4#12).toNat < s.cfg.maxPkt ∧ 132 = (s.accRxSize + (4#12).toNat) % 2 ^ s.cfg.wSize ∧
      132 = s.cfg.target) ∧
      ((0#12).toNat < s.cfg.maxPkt ∧ 0 = (base.accRxSize + (0#12).toNat) % 2 ^ s.cfg.wSize ∧ 0 ≠ s.cfg.target) := by decide

/-- The last byte that fits, and the first that does not (V-P-12). -/
theorem witness_PktStoresThePayloadBounded :
    let s : State := { base with outLane := List.replicate 65 0xA5#8 }
    (63 < min (65#12).toNat s.cfg.rxbufCap ∧ s.outLane[63]? = some 0xA5#8) ∧
      min (65#12).toNat s.cfg.rxbufCap ≤ 64 := ⟨⟨by decide, rfl⟩, by decide⟩

theorem witness_PktFrame : ∃ t, exec (.pkt 65#12) base = .next t := ⟨_, rfl⟩

/-- A packet of each class. -/
theorem witness_TransferClosesExactlyOnShortOrOversized :
    base.cfg.Wf ∧ base.AccInv ∧ 0 < base.cfg.wXfer ∧ (64#12).toNat = base.cfg.maxPkt ∧
      ((0#12).toNat ≠ base.cfg.maxPkt ∧ (65#12).toNat ≠ base.cfg.maxPkt) ∧ ∃ t, exec (.pkt 63#12) base = .next t :=
  ⟨by decide, by decide, by decide, by decide, by decide, _, rfl⟩

theorem witness_PayloadPlaysNoPart :
    let s' : State := { base with pktbuf := [(0, 0x01#8)], outLane := [0x02#8] }
    base.withoutPayload = s'.withoutPayload ∧ base.pktbuf ≠ s'.pktbuf := ⟨rfl, by decide⟩

/-- One full-size packet and a short one, on TARGET and off it; and a full-size and a short packet after an oversized
one. -/
theorem witness_TransferOfManyPackets :
    let s : State := { base with accRxSize := 64 }
    (s.cfg.Wf ∧ s.mainPend = [] ∧ (4#12).toNat < s.cfg.maxPkt ∧
      132 = (s.accRxSize + 1 * s.cfg.maxPkt + (4#12).toNat) % 2 ^ s.cfg.wSize ∧ 132 = s.cfg.target) ∧
      (67 = (s.accRxSize + 0 * s.cfg.maxPkt + (3#12).toNat) % 2 ^ s.cfg.wSize ∧ 67 ≠ s.cfg.target) ∧
      s.cfg.maxPkt < (65#12).toNat ∧ (64#12).toNat = s.cfg.maxPkt ∧
      (63#12).toNat < s.cfg.maxPkt ∧ ∃ t u v, exec (.pkt 65#12) s = .next t ∧ exec (.pkt 64#12) t = .next u ∧
        exec (.pkt 63#12) t = .next v :=
  ⟨by decide, by decide, by decide, by decide, by decide, _, _, _, rfl, rfl, rfl⟩

/-- V-P-8: the size just below its wrap. -/
theorem witness_FullSizeRunWrapsTheSize :
    let s : State := { base with accRxSize := 0xFFFFFFC0 }
    s.cfg.Wf ∧ s.AccInv ∧ s.mainPend = [] := by decide

theorem witness_ConfigZeroesOnlyTheSize : ({ base with accRxSize := 128 } : State).mainPend = [] := by decide

theorem witness_ResetGivesTheResetValues :
    let s : State := { tiny with turns := [.rst [⟨0x3000#16, []⟩]] }
    s.turns = .rst [⟨0x3000#16, []⟩] :: [] := by decide

theorem witness_ResetStateMeetsTheInvariant :
    Config.default.Wf ∧ ({ cfg132 with cTx := 127, cRx := 1, maxReject := 6, noData := 0x100#16 } : Config).Wf := by decide

theorem witness_EveryStepKeepsTheInvariant :
    let s : State := { tiny with turns := [.tick 0x8800#16 []] }
    s.Inv ∧ ∃ t, step s = .next t := ⟨by decide, _, rfl⟩

theorem witness_QueueInvariantsHoldBetweenSteps :
    cfg132.Wf ∧ ∃ t, Sys2Proof.core.run 1 { State.resetWith cfg132 with turns := [.tick 0x8C01#16 [0x62#8]] } = .next t :=
  ⟨by decide, _, rfl⟩

theorem witness_NoStepFaults : ({ tiny with turns := [.main] } : State).Inv := by decide

theorem witness_HistoryOnlyGrows :
    let s : State := { tiny with turns := [.tick 0x8800#16 []] }
    (∀ c rest, s.turns ≠ .rst c :: rest) ∧ ∃ t, step s = .next t := ⟨(by intro c rest h; cases h), _, rfl⟩

/-- A MAIN step that puts a byte, and a TICK step. -/
theorem witness_WritersOfTheSharedState :
    let s : State := { base with turns := [.main], mainPend := [.putByte 0x42#8] }
    let u : State := { base with turns := [.tick 0x8C01#16 [0x62#8]] }
    (s.cfg.cTx ≤ 127 ∧ s.turns = .main :: [] ∧ ∃ t, step s = .next t) ∧
      (u.cfg.cTx ≤ 127 ∧ u.turns = .tick 0x8C01#16 [0x62#8] :: [] ∧ ∃ t, step u = .next t) :=
  ⟨⟨by decide, rfl, _, rfl⟩, ⟨by decide, rfl, _, rfl⟩⟩

theorem witness_WritersOfTheRegisters :
    (∃ t, exec (.pkt 3#12) base = .next t) ∧ (∃ t, exec .get base = .next t) ∧
      ∃ t, exec (.tick true false 0#7) base = .next t := ⟨⟨_, rfl⟩, ⟨_, rfl⟩, _, rfl⟩

theorem witness_IpAdvancesOnlyWhenACommandCompletes :
    let s : State := { base with turns := [.main], cmds := [⟨0x3000#16, []⟩] }
    let u : State := { base with turns := [.main], mainPend := [.putByte 0x42#8] }
    ((∀ c rest, s.turns ≠ .rst c :: rest) ∧ s.cmds[s.ip]? = some ⟨0x3000#16, []⟩ ∧
      ∃ t, step s = .next t ∧ t.mainPend = []) ∧
      ((∀ c rest, u.turns ≠ .rst c :: rest) ∧ u.mainPend ≠ [] ∧ ∃ t, step u = .next t ∧ t.mainPend = []) :=
  ⟨⟨(by intro c rest h; cases h), rfl, _, rfl, rfl⟩, ⟨(by intro c rest h; cases h), by decide, _, rfl, rfl⟩⟩

/-- A put, and a discard. -/
theorem witness_TxBytesLeaveInPutOrder :
    let s : State := { base with turns := [.main], mainPend := [.putByte 0x42#8] }
    let u : State := { tiny with turns := [.tick 0x8000#16 []] }
    (s.Inv ∧ (∀ c rest, s.turns ≠ .rst c :: rest) ∧ ∃ t, step s = .next t) ∧
      (u.Inv ∧ (∀ c rest, u.turns ≠ .rst c :: rest) ∧ ∃ t, step u = .next t) :=
  ⟨⟨by decide, (by intro c rest h; cases h), _, rfl⟩, ⟨by decide, (by intro c rest h; cases h), _, rfl⟩⟩

theorem witness_ParametersNeverChange : ∃ t, step { tiny with turns := [.rst []] } = .next t := ⟨_, rfl⟩

end Sys2Proof.Tests
end

/-! PROOFS. The words of the B and Z formats as numbers and as rows (30_encoding.md R64 to R66, R68), and the words that
no port takes (R70). -/

namespace Sys2Proof

/-! ### The fields of a word as numbers -/

@[simp] theorem opcodeOf_toNat (w : Word) : (opcodeOf w).toNat = w.toNat / 4096 := by
  simp only [opcodeOf, BitVec.extractLsb'_toNat, Nat.shiftRight_eq_div_pow]
  omega

@[simp] theorem operandOf_toNat (w : Word) : (operandOf w).toNat = w.toNat % 4096 := by
  simp [operandOf]

theorem zeroFieldB_toNat (w : Word) : (w.extractLsb' 8 4).toNat = w.toNat / 256 % 16 := by
  simp [Nat.shiftRight_eq_div_pow]

/-- The mask of format B clears BYTE and keeps the rest. -/
theorem and_maskB_toNat (w : Word) : (w &&& 0xFF00#16).toNat = w.toNat / 256 * 256 := by
  have hshift : w &&& 0xFF00#16 = (w >>> 8) <<< 8 := by
    refine word_ext fun i hi => ?_
    interval_cases i <;> simp
  rw [hshift, BitVec.toNat_shiftLeft, BitVec.toNat_ushiftRight, Nat.shiftRight_eq_div_pow, Nat.shiftLeft_eq]
  omega

/-- An opcode above twelve zero bits: the match of every row. -/
theorem opcode_shiftLeft_toNat (op : BitVec 4) : (op.setWidth 16 <<< 12).toNat = op.toNat * 4096 := by
  simp only [BitVec.toNat_shiftLeft, BitVec.toNat_setWidth, Nat.shiftLeft_eq]
  omega

/-- A word lies in the row of a format B opcode when it has that opcode and its zero field is zero (R61). -/
theorem and_maskB_eq_iff (w : Word) (op : BitVec 4) :
    w &&& 0xFF00#16 = op.setWidth 16 <<< 12 ↔ opcodeOf w = op ∧ w.extractLsb' 8 4 = 0#4 := by
  rw [← BitVec.toNat_inj, ← BitVec.toNat_inj, ← BitVec.toNat_inj, and_maskB_toNat, opcode_shiftLeft_toNat,
    opcodeOf_toNat, zeroFieldB_toNat, BitVec.toNat_ofNat]
  omega

/-- A word lies in the row of a format Z opcode when it has that opcode and no operand (R61). -/
theorem and_maskZ_eq_iff (w : Word) (op : BitVec 4) :
    w &&& 0xFFFF#16 = op.setWidth 16 <<< 12 ↔ opcodeOf w = op ∧ operandOf w = 0#12 := by
  have hall : w &&& 0xFFFF#16 = w := BitVec.and_allOnes
  rw [hall, ← BitVec.toNat_inj, ← BitVec.toNat_inj, ← BitVec.toNat_inj, opcode_shiftLeft_toNat,
    opcodeOf_toNat, operandOf_toNat, BitVec.toNat_ofNat]
  omega

/-! ### Which words decode to PUT, PUTT, GET and CONFIG -/

theorem decode_eq_put_iff (cRx : Nat) (w : Word) :
    decode cRx .command w = .ok (.put (w.extractLsb' 0 8)) ↔ opcodeOf w = 1#4 ∧ w.extractLsb' 8 4 = 0#4 := by
  refine ⟨fun h => by simpa using decode_ok_cases h, fun ⟨hop, hzero⟩ => ?_⟩
  simp [decode, portOf, decodeFormat, decodeB, hop, hzero]

theorem decode_eq_putt_iff (cRx : Nat) (w : Word) :
    decode cRx .command w = .ok (.putt (w.extractLsb' 0 8)) ↔ opcodeOf w = 2#4 ∧ w.extractLsb' 8 4 = 0#4 := by
  refine ⟨fun h => by simpa using decode_ok_cases h, fun ⟨hop, hzero⟩ => ?_⟩
  simp [decode, portOf, decodeFormat, decodeB, hop, hzero]

theorem decode_eq_get_iff (cRx : Nat) (w : Word) :
    decode cRx .command w = .ok .get ↔ opcodeOf w = 3#4 ∧ operandOf w = 0#12 := by
  refine ⟨fun h => by simpa using decode_ok_cases h, fun ⟨hop, hzero⟩ => ?_⟩
  simp [decode, portOf, decodeFormat, decodeZ, hop, hzero]

theorem decode_eq_config_iff (cRx : Nat) (w : Word) :
    decode cRx .command w = .ok .config ↔ opcodeOf w = 5#4 ∧ operandOf w = 0#12 := by
  refine ⟨fun h => by simpa using decode_ok_cases h, fun ⟨hop, hzero⟩ => ?_⟩
  simp [decode, portOf, decodeFormat, decodeZ, hop, hzero]

/-! ### The words of PUT and PUTT as numbers -/

/-- A byte below an opcode is added to it: the two share no bit. -/
theorem opcode_or_byte_toNat (op : BitVec 4) (b : Byte) :
    ((op.setWidth 16 <<< 12) ||| b.setWidth 16).toNat = op.toNat * 4096 + b.toNat := by
  have hb : b.toNat < 2 ^ 12 := by omega
  rw [BitVec.toNat_or, opcode_shiftLeft_toNat, BitVec.toNat_setWidth_of_le (by decide), Nat.mul_comm]
  exact (Nat.two_pow_add_eq_or_of_lt hb op.toNat).symm

theorem encode_put_toNat (b : Byte) : (encode (.put b)).toNat = 0x1000 + b.toNat := opcode_or_byte_toNat 1#4 b

theorem encode_putt_toNat (b : Byte) : (encode (.putt b)).toNat = 0x2000 + b.toNat := opcode_or_byte_toNat 2#4 b

/-- Settles O3: a row's match and mask say the opcode and the zero field, which are what the decoder checks. -/
theorem commandWordsMatchTheirRows : Obligations.CommandWordsMatchTheirRows := by
  intro cRx w b
  refine ⟨encode_put_toNat b, encode_putt_toNat b, rfl, rfl, ?_, ?_, ?_, ?_, by decide, by decide⟩
  · exact (and_maskB_eq_iff w 1#4).trans (decode_eq_put_iff cRx w).symm
  · exact (and_maskB_eq_iff w 2#4).trans (decode_eq_putt_iff cRx w).symm
  · exact (and_maskZ_eq_iff w 3#4).trans (decode_eq_get_iff cRx w).symm
  · exact (and_maskZ_eq_iff w 5#4).trans (decode_eq_config_iff cRx w).symm

/-! ### The port of an opcode, and the words refused for it (R60, R70) -/

theorem portOf_of_reserved {w : Word} (h : w.toNat / 4096 ∈ [0, 6, 7, 9, 10, 11, 12, 13, 14, 15]) :
    portOf (opcodeOf w) = none := by
  simp only [portOf, opcodeOf_toNat]
  generalize w.toNat / 4096 = op at h ⊢
  revert op
  decide

theorem portOf_of_command {w : Word} (h : w.toNat / 4096 ∈ [1, 2, 3, 4, 5]) :
    portOf (opcodeOf w) = some .command := by
  simp only [portOf, opcodeOf_toNat]
  generalize w.toNat / 4096 = op at h ⊢
  revert op
  decide

theorem portOf_of_tick {w : Word} (h : w.toNat / 4096 = 8) : portOf (opcodeOf w) = some .tick := by
  simp [portOf, h]

theorem decode_of_portOf_none {cRx : Nat} {p : Port} {w : Word} (h : portOf (opcodeOf w) = none) :
    decode cRx p w = .error .reservedOpcode := by
  simp only [decode, h]

theorem decode_of_portOf_ne {cRx : Nat} {p q : Port} {w : Word} (h : portOf (opcodeOf w) = some q) (hne : q ≠ p) :
    decode cRx p w = .error .wrongPort := by
  simp only [decode, h, if_neg hne]

namespace Machine

/-! ### A refused word refuses the step that takes it (60_exceptions.md R127) -/

theorem issueCommand_of_decode_error {c : Command} {s : State} {why : Reject}
    (h : decode s.cfg.cRx .command c.word = .error why) : issueCommand c s = .refused (.word why) := by
  simp only [issueCommand, h]

theorem tickStep_of_decode_error {w : Word} {lane : List Byte} {s : State} {why : Reject}
    (h : decode s.cfg.cRx .tick w = .error why) : tickStep w lane s = .refused (.word why) := by
  simp only [tickStep, h]

theorem step_tick_turn (s : State) (w : Word) (lane : List Byte) (rest : List Turn) :
    step { s with turns := .tick w lane :: rest } = tickStep w lane (s.setTurns rest) := rfl

theorem step_main_turn (s : State) (rest : List Turn) :
    step { s with turns := .main :: rest } = mainStep (s.setTurns rest) := rfl

/-- With nothing pending MAIN issues the command at `ip` (40_queue_ops.md R75). -/
theorem mainStep_of_command_at_ip {s : State} {c : Command} (hpend : s.mainPend = []) (hcmd : s.cmds[s.ip]? = some c) :
    mainStep s = issueCommand c s := by
  simp only [mainStep, hpend, hcmd, if_true]

/-- Settles O6: the decoder looks at the opcode's port before anything else, and each port's step decodes its word. -/
theorem reservedAndMisroutedWordsAreRefused : Obligations.ReservedAndMisroutedWordsAreRefused := by
  intro s w lane rest
  refine ⟨fun hres => ⟨?_, ?_⟩, fun htick => ?_, fun hcommand => ?_, fun hpend hcmd => ?_, ?_⟩
  · exact issueCommand_of_decode_error (decode_of_portOf_none (portOf_of_reserved hres))
  · rw [step_tick_turn]
    exact tickStep_of_decode_error (decode_of_portOf_none (portOf_of_reserved hres))
  · exact issueCommand_of_decode_error (decode_of_portOf_ne (portOf_of_tick htick) (by decide))
  · rw [step_tick_turn]
    exact tickStep_of_decode_error (decode_of_portOf_ne (portOf_of_command hcommand) (by decide))
  · rw [step_main_turn]
    exact mainStep_of_command_at_ip hpend hcmd
  · exact issueCommand_of_decode_error (decode_of_portOf_none (portOf_of_reserved (w := 0#16) (by decide)))

end Machine
end Sys2Proof

/-! PROOFS. The issue actions of PUT and PUTT (40_queue_ops.md R76, R79, R80). -/

namespace Sys2Proof.Machine

/-- PUT is never complete when it issues: its put is still to come (R76). -/
theorem execPut_eq_next (b : Byte) (s : State) : execPut b s = .next { s with mainPend := [.putByte b] } :=
  congrArg Host.Outcome.next (State.finishIfDone_of_pending (s := s.setPend [.putByte b]) (List.cons_ne_nil _ _))

theorem stringPath_of_ne_lf {b : Byte} (hb : b ≠ 0x0A#8) : stringPath b = [.putByte b] := if_neg hb

/-- PUT and PUTT differ only in the micro-steps they load, and off LF those are the same (R79, R80). -/
theorem execPutt_of_ne_lf {b : Byte} (hb : b ≠ 0x0A#8) (s : State) : execPutt b s = execPut b s := by
  rw [execPutt, execPut, stringPath_of_ne_lf hb]

/-- Settles O18: off LF, PUTT's issue action is PUT's, and that loads the one put of the byte. -/
theorem puttOfOtherBytesIsPut : Obligations.PuttOfOtherBytesIsPut := by
  intro s b hb
  have hsame : exec (.putt b) s = exec (.put b) s := execPutt_of_ne_lf hb s
  exact ⟨hsame, hsame.trans (execPut_eq_next b s)⟩

end Sys2Proof.Machine

/-! PROOFS. The two sides of a tick (41_tick.md R94 to R101): what each does in each of its cases, and that neither
touches the other's queue. -/

namespace Sys2Proof.Machine

/-! ### The TX side -/

theorem State.txPending_eq_true_iff (s : State) : s.txPending = true ↔ 0 < s.txqCount.toNat ∨ s.txqZlp = true := by
  simp [State.txPending]

theorem State.flushZlp_eq_true_iff (s : State) : s.flushZlp = true ↔ s.txqCount.toNat = s.cfg.cTx := by
  simp [State.flushZlp]

theorem txSide_of_not_pending {s : State} (hidle : s.txPending = false) (r : Bool) : txSide r s = .ok s := by
  simp [txSide, hidle]

theorem txSide_of_ready {s : State} (hpend : s.txPending = true) (hcap : s.txqCount.toNat ≤ s.cfg.cTx) :
    txSide true s = .ok ((s.record (.txPacket s.txBatch)).setTxq 0#7 0#3 s.flushZlp) := by
  simp [txSide, hpend, flushTx, hcap]

/-- The TX side writes the TX queue's registers and the history, and nothing else. -/
theorem txSide_frame {r : Bool} {s t : State} (h : txSide r s = .ok t) :
    t = { s with txqCount := t.txqCount, txqReject := t.txqReject, txqZlp := t.txqZlp, hist := t.hist } := by
  obtain ⟨-, rfl⟩ | ⟨-, -, -, rfl⟩ | ⟨-, -, -, rfl⟩ | ⟨-, -, -, rfl⟩ := txSide_cases h
  all_goals rfl

/-! ### The RX side -/

theorem rxSide_of_drained {s : State} (hdrained : s.rxqCursor = s.rxqCount) (n : BitVec 7) :
    rxSide true n s = refillRx n s := by
  simp [rxSide, State.rxDrained, hdrained]

theorem rxSide_of_undrained {a : Bool} {s : State} (hskip : s.rxqCursor ≠ s.rxqCount ∨ a = false) (n : BitVec 7) :
    rxSide a n s = s := by
  rcases hskip with hunread | rfl
  · simp [rxSide, State.rxDrained, hunread]
  · simp [rxSide]

/-- The RX side writes `rxbuf` and the RX queue's registers, and nothing else. -/
theorem rxSide_frame (a : Bool) (n : BitVec 7) (s : State) :
    rxSide a n s = { s with rxbuf := (rxSide a n s).rxbuf, rxqCount := (rxSide a n s).rxqCount,
                            rxqCursor := (rxSide a n s).rxqCursor } := by
  obtain ⟨-, -, h⟩ | ⟨-, h⟩ := rxSide_cases a n s
  · rw [h]; rfl
  · rw [h]

@[simp] theorem rxSide_txbuf (a : Bool) (n : BitVec 7) (s : State) : (rxSide a n s).txbuf = s.txbuf := by
  rw [rxSide_frame]

@[simp] theorem rxSide_txqCount (a : Bool) (n : BitVec 7) (s : State) : (rxSide a n s).txqCount = s.txqCount := by
  rw [rxSide_frame]

@[simp] theorem rxSide_txqReject (a : Bool) (n : BitVec 7) (s : State) : (rxSide a n s).txqReject = s.txqReject := by
  rw [rxSide_frame]

@[simp] theorem rxSide_txqZlp (a : Bool) (n : BitVec 7) (s : State) : (rxSide a n s).txqZlp = s.txqZlp := by
  rw [rxSide_frame]

@[simp] theorem rxSide_hist (a : Bool) (n : BitVec 7) (s : State) : (rxSide a n s).hist = s.hist := by
  rw [rxSide_frame]

@[simp] theorem refillRx_rxqCount (n : BitVec 7) (s : State) : (refillRx n s).rxqCount = n := rfl

@[simp] theorem refillRx_rxqCursor (n : BitVec 7) (s : State) : (refillRx n s).rxqCursor = 0#7 := rfl

/-- A byte that the RX data lane lists is that byte of the batch (10_state.md R38). -/
theorem State.batchBytes_getD_of_listed {s : State} {n i : Nat} {b : Byte} (hi : i < n)
    (hlisted : s.rxLane[i]? = some b) (d : Byte) : (s.batchBytes n).getD i d = b := by
  simp [State.batchBytes, hi, hlisted]

theorem refillRx_byteAt_of_listed {n : BitVec 7} {s : State} {i : Nat} {b : Byte} (hi : i < n.toNat)
    (hlisted : s.rxLane[i]? = some b) : (refillRx n s).byteAt .rx i = b := by
  rw [refillRx, State.setRxq_byteAt, State.byteAt_store_self, if_pos (by simpa using hi)]
  exact State.batchBytes_getD_of_listed hi hlisted _

theorem refillRx_byteAt_of_le {n : BitVec 7} {s : State} {i : Nat} (hi : n.toNat ≤ i) :
    (refillRx n s).byteAt .rx i = s.byteAt .rx i := by
  simp [refillRx, State.byteAt_store_self, Nat.not_lt.2 hi]

/-! ### The tick -/

/-- Settles O29: the RX side leaves what the flush wrote. -/
theorem flushSendsTheWholeQueue : Obligations.FlushSendsTheWholeQueue := by
  intro s a n hwf hcap hpend
  have hflush := txSide_of_ready (s.txPending_eq_true_iff.2 hpend) hcap
  refine ⟨_, execTick_of_ok hwf hflush, ?_⟩
  simp [State.txBatch, State.flushZlp_eq_true_iff]

/-- Settles O31: an idle TX side answers the state it was given, and the RX side leaves the TX queue alone. -/
theorem idleTxSideChangesNothing : Obligations.IdleTxSideChangesNothing := by
  intro s r a n hwf hcount hzlp
  have hidle : s.txPending = false := by simp [State.txPending, hcount, hzlp]
  refine ⟨_, execTick_of_ok hwf (txSide_of_not_pending hidle r), ?_⟩
  simp [hcount, hzlp]

/-- Settles O32: the TX side leaves the RX queue and the lane as they were, and the refill then takes the batch. -/
theorem refillReplacesADrainedBatch : Obligations.RefillReplacesADrainedBatch := by
  intro s r n hwf hcap hdrained
  obtain ⟨t, ht⟩ := txSide_ok (r := r) hcap
  have hframe := txSide_frame ht
  have hbyte (i : Nat) : t.byteAt .rx i = s.byteAt .rx i := congrArg (·.byteAt .rx i) hframe
  have hlane : t.rxLane = s.rxLane := by rw [hframe]
  have hdrained' : t.rxqCursor = t.rxqCount := by rw [hframe]; exact hdrained
  refine ⟨_, execTick_of_ok hwf ht, ?_⟩
  simp only [rxSide_of_drained hdrained', State.countDraw_rxqCount, State.countDraw_rxqCursor,
    State.countDraw_byteAt, refillRx_rxqCount, refillRx_rxqCursor]
  refine ⟨trivial, trivial, fun i b hi hlisted => ?_, fun i hi => ?_, Eq.symm⟩
  · exact refillRx_byteAt_of_listed hi (hlane ▸ hlisted)
  · exact (refillRx_byteAt_of_le hi).trans (hbyte i)

/-- Settles O33: the RX side answers the state the TX side left, which has the same RX queue. -/
theorem undrainedRxSideDoesNothing : Obligations.UndrainedRxSideDoesNothing := by
  intro s r a n hwf hcap hskip
  obtain ⟨t, ht⟩ := txSide_ok (r := r) hcap
  have hframe := txSide_frame ht
  have hskip' : t.rxqCursor ≠ t.rxqCount ∨ a = false := by rw [hframe]; exact hskip
  refine ⟨_, execTick_of_ok hwf ht, ?_⟩
  rw [rxSide_of_undrained hskip', hframe]
  exact ⟨rfl, rfl, rfl, fun _ => rfl⟩

end Sys2Proof.Machine

/-! PROOFS. `Dec(v)` (42_accountant.md R115): its digits, read from the most significant one. -/

namespace Sys2Proof.Machine

/-- Induction along the digits of a number: `dec` drops the last one as long as there are two. -/
theorem decimalInduction {P : Nat → Prop} (digit : ∀ v, v < 10 → P v) (more : ∀ v, 10 ≤ v → P (v / 10) → P v)
    (v : Nat) : P v := by
  induction v using Nat.strong_induction_on with
  | _ v ih =>
    rcases Nat.lt_or_ge v 10 with hv | hv
    · exact digit v hv
    · exact more v hv (ih (v / 10) (by omega))

theorem digitByte_toNat {d : Nat} (hd : d < 10) : (BitVec.ofNat 8 (0x30 + d)).toNat = 0x30 + d := by
  rw [BitVec.toNat_ofNat]
  omega

theorem digitByte_ne_zero {d : Nat} (hd : d < 10) (hne : d ≠ 0) : BitVec.ofNat 8 (0x30 + d) ≠ 0x30#8 := by
  rw [ne_eq, ← BitVec.toNat_inj, digitByte_toNat hd]
  simpa using hne

theorem dec_ne_nil (v : Nat) : dec v ≠ [] := by
  rcases Nat.lt_or_ge v 10 with hv | hv
  · simp [dec_of_lt hv]
  · simp [dec_of_ge hv]

/-- No leading zero: a further digit leaves the first one as it is. -/
theorem dec_head?_ne_zero (v : Nat) : v ≠ 0 → (dec v).head? ≠ some 0x30#8 := by
  induction v using decimalInduction with
  | digit v hv =>
    intro hne
    rw [dec_of_lt hv, List.head?_cons]
    exact fun h => digitByte_ne_zero hv hne (Option.some.inj h)
  | more v hv ih =>
    intro _
    rw [dec_of_ge hv, List.head?_append_of_ne_nil _ (dec_ne_nil _)]
    exact ih (by omega)

/-- Reading the digits most significant first gives the number back: a further digit makes `v / 10` into `v`. -/
theorem dec_foldl (v : Nat) : (dec v).foldl (fun acc b => acc * 10 + (b.toNat - 0x30)) 0 = v := by
  induction v using decimalInduction with
  | digit v hv =>
    rw [dec_of_lt hv, List.foldl_cons, List.foldl_nil, digitByte_toNat hv]
    omega
  | more v hv ih =>
    rw [dec_of_ge hv, List.foldl_append, ih, List.foldl_cons, List.foldl_nil, digitByte_toNat (by omega)]
    omega

/-- Settles O48: the four properties of `dec`, each by induction along the digits. -/
theorem decIsUnpaddedDecimal : Obligations.DecIsUnpaddedDecimal :=
  ⟨rfl, fun v => ⟨dec_ne_nil v, dec_digits v, dec_head?_ne_zero v, dec_foldl v⟩⟩

end Sys2Proof.Machine

/-! PROOFS. CONFIG (42_accountant.md R112), alone and after another command. -/

namespace Sys2Proof.Machine

theorem execAll_cons_of_next {i : Instr} {is : List Instr} {s t : State} (h : exec i s = .next t) :
    execAll (i :: is) s = execAll is t := by
  simp only [execAll, h]

/-- CONFIG loads no micro-step, so with none pending it completes at once (R112). -/
theorem exec_config_eq_next {s : State} (hpend : s.mainPend = []) :
    exec .config s =
      .next { s with accRxSize := 0, hist := s.hist ++ [.outEpEnable], ip := s.ip + 1 } :=
  congrArg Host.Outcome.next
    (State.finishIfDone_of_done (s := (s.setAcc 0 s.accRxCount).record .outEpEnable) hpend)

/-- Settles O47: the second CONFIG starts where the first one ended, with the size 0 already. -/
theorem configZeroesOnlyTheSize : Obligations.ConfigZeroesOnlyTheSize := by
  intro s hpend
  refine ⟨exec_config_eq_next hpend, ?_⟩
  rw [execAll_cons_of_next (exec_config_eq_next hpend), execAll_cons_of_next (exec_config_eq_next ?_)]
  · simp [execAll]
  · exact hpend

end Sys2Proof.Machine

/-! PROOFS. The words of PKT and TICK, the two round trips (30_encoding.md section 2), and the words that R71
refuses. -/

namespace Sys2Proof

/-! ### Fields of a word as numbers -/

theorem opcodeOf_eq_iff (w : Word) (op : BitVec 4) : opcodeOf w = op ↔ w.toNat / 4096 = op.toNat := by
  rw [← BitVec.toNat_inj, opcodeOf_toNat]

theorem operandOf_eq_zero_iff (w : Word) : operandOf w = 0#12 ↔ w.toNat % 4096 = 0 := by
  rw [← BitVec.toNat_inj, operandOf_toNat, BitVec.toNat_ofNat]

theorem zeroFieldB_eq_zero_iff (w : Word) : w.extractLsb' 8 4 = 0#4 ↔ w.toNat / 256 % 16 = 0 := by
  rw [← BitVec.toNat_inj, zeroFieldB_toNat, BitVec.toNat_ofNat]

theorem zeroFieldT_toNat (w : Word) : (w.extractLsb' 7 3).toNat = w.toNat / 128 % 8 := by
  simp [Nat.shiftRight_eq_div_pow]

theorem zeroFieldT_eq_zero_iff (w : Word) : w.extractLsb' 7 3 = 0#3 ↔ w.toNat / 128 % 8 = 0 := by
  rw [← BitVec.toNat_inj, zeroFieldT_toNat, BitVec.toNat_ofNat]

theorem byteField_toNat (w : Word) : (w.extractLsb' 0 8).toNat = w.toNat % 256 := by simp

theorem batchField_toNat (w : Word) : (w.extractLsb' 0 7).toNat = w.toNat % 128 := by simp

theorem batchField_eq_zero_iff (w : Word) : w.extractLsb' 0 7 = 0#7 ↔ w.toNat % 128 = 0 := by
  rw [← BitVec.toNat_inj, batchField_toNat, BitVec.toNat_ofNat]

theorem bit_toNat (w : Word) (i : Nat) : (w.getLsbD i).toNat = w.toNat / 2 ^ i % 2 := by
  rw [BitVec.getLsbD, Nat.toNat_testBit]

theorem bit_eq_of_toNat {w : Word} {i : Nat} {b : Bool} (h : w.toNat / 2 ^ i % 2 = b.toNat) : w.getLsbD i = b := by
  have htoNat_injective : ∀ x y : Bool, x.toNat = y.toNat → x = y := by decide
  exact htoNat_injective _ _ ((bit_toNat w i).trans h)

theorem availBit_eq_false_iff (w : Word) : w.getLsbD 10 = false ↔ w.toNat / 1024 % 2 = 0 := by
  rw [← Bool.toNat_eq_zero, bit_toNat]; norm_num

/-- Fields that share no bit add up: `hi` above the `k` bits of `lo`. -/
theorem shiftLeft_or_toNat {m k : Nat} (hi : BitVec m) (lo : BitVec k) (hmk : m + k ≤ 16) :
    ((hi.setWidth 16 <<< k) ||| lo.setWidth 16).toNat = hi.toNat * 2 ^ k + lo.toNat := by
  have hfits : hi.toNat * 2 ^ k < 2 ^ 16 := by
    calc hi.toNat * 2 ^ k < 2 ^ m * 2 ^ k := Nat.mul_lt_mul_of_pos_right hi.isLt (Nat.two_pow_pos k)
      _ = 2 ^ (m + k) := (Nat.pow_add 2 m k).symm
      _ ≤ 2 ^ 16 := Nat.pow_le_pow_right (by decide) hmk
  rw [BitVec.toNat_or, BitVec.toNat_shiftLeft, BitVec.toNat_setWidth_of_le (by omega),
    BitVec.toNat_setWidth_of_le (by omega), Nat.shiftLeft_eq, Nat.mod_eq_of_lt hfits, Nat.mul_comm]
  exact (Nat.two_pow_add_eq_or_of_lt lo.isLt hi.toNat).symm

/-! ### The words and rows of PKT and TICK -/

theorem encode_pkt_toNat (len : BitVec 12) : (encode (.pkt len)).toNat = 0x4000 + len.toNat :=
  shiftLeft_or_toNat 4#4 len (by decide)

/-- R and A stand just above bits 9:7, which are zero, and N below them. -/
theorem encode_tick_toNat (r a : Bool) (n : BitVec 7) :
    (encode (.tick r a n)).toNat = 0x8000 + r.toNat * 2048 + a.toNat * 1024 + n.toNat := by
  cases r <;> cases a
  · exact shiftLeft_or_toNat 0x100#9 n (by decide)
  · exact shiftLeft_or_toNat 0x108#9 n (by decide)
  · exact shiftLeft_or_toNat 0x110#9 n (by decide)
  · exact shiftLeft_or_toNat 0x118#9 n (by decide)

/-- A word lies in the row of a format L opcode when it has that opcode (R61). -/
theorem and_maskL_eq_iff (w : Word) (op : BitVec 4) :
    w &&& 0xF000#16 = op.setWidth 16 <<< 12 ↔ opcodeOf w = op := by
  have hshift : w &&& 0xF000#16 = (opcodeOf w).setWidth 16 <<< 12 := by
    refine word_ext fun i hi => ?_
    interval_cases i <;> simp [opcodeOf]
  rw [hshift, ← BitVec.toNat_inj, opcode_shiftLeft_toNat, opcode_shiftLeft_toNat, ← BitVec.toNat_inj]
  omega

/-- The mask of format T keeps the opcode and the zero field. -/
theorem and_maskT_toNat (w : Word) : (w &&& 0xF380#16).toNat = w.toNat / 4096 * 4096 + w.toNat / 128 % 8 * 128 := by
  have hsplit : w &&& 0xF380#16 =
      ((opcodeOf w).setWidth 16 <<< 12) ||| ((w.extractLsb' 7 3).setWidth 12 <<< 7).setWidth 16 := by
    refine word_ext fun i hi => ?_
    interval_cases i <;> simp [opcodeOf]
  have hfield : ((w.extractLsb' 7 3).setWidth 12 <<< 7).toNat = w.toNat / 128 % 8 * 128 := by
    rw [BitVec.toNat_shiftLeft, BitVec.toNat_setWidth, zeroFieldT_toNat, Nat.shiftLeft_eq]
    omega
  rw [hsplit, shiftLeft_or_toNat _ _ (by decide), opcodeOf_toNat, hfield]
  rfl

/-- A word lies in TICK's row when it has TICK's opcode and bits 9:7 are zero (R69). -/
theorem and_maskT_eq_iff (w : Word) : w &&& 0xF380#16 = 0x8000#16 ↔ opcodeOf w = 8#4 ∧ w.extractLsb' 7 3 = 0#3 := by
  rw [← BitVec.toNat_inj, and_maskT_toNat, opcodeOf_eq_iff, zeroFieldT_eq_zero_iff, BitVec.toNat_ofNat,
    BitVec.toNat_ofNat]
  omega

theorem Instr.wf_tick_iff (cRx : Nat) (r a : Bool) (n : BitVec 7) :
    (Instr.tick r a n).wf cRx = true ↔ (a = false → n = 0#7) ∧ n.toNat ≤ cRx := by
  cases a <;> simp [Instr.wf]

theorem decode_eq_pkt_iff (cRx : Nat) (w : Word) :
    decode cRx .command w = .ok (.pkt (operandOf w)) ↔ opcodeOf w = 4#4 := by
  refine ⟨fun h => by simpa using decode_ok_cases h, fun hop => ?_⟩
  simp [decode, portOf, decodeFormat, decodeL, hop]

/-- A word of TICK's opcode with its zero field zero is the TICK of its fields, where they are legal (R69, R71). -/
theorem decode_tick_of_fields {cRx : Nat} {w : Word} (hop : opcodeOf w = 8#4) (hzero : w.extractLsb' 7 3 = 0#3)
    (hwf : (Instr.tick (w.getLsbD 11) (w.getLsbD 10) (w.extractLsb' 0 7)).wf cRx = true) :
    decode cRx .tick w = .ok (.tick (w.getLsbD 11) (w.getLsbD 10) (w.extractLsb' 0 7)) := by
  have hlegal := (tickReject_eq_none_iff cRx _ _ _).2 hwf
  simp only [decode, hop, portOf, decodeFormat, decodeT, hzero, BitVec.toNat_ofNat, hlegal, if_true]

theorem decode_eq_tick_iff (cRx : Nat) (w : Word) :
    decode cRx .tick w = .ok (.tick (w.getLsbD 11) (w.getLsbD 10) (w.extractLsb' 0 7)) ↔
      opcodeOf w = 8#4 ∧ w.extractLsb' 7 3 = 0#3 ∧
        (Instr.tick (w.getLsbD 11) (w.getLsbD 10) (w.extractLsb' 0 7)).wf cRx = true := by
  refine ⟨fun h => ?_, fun ⟨hop, hzero, hwf⟩ => decode_tick_of_fields hop hzero hwf⟩
  obtain ⟨hop, hzero, hlegal⟩ : opcodeOf w = 8#4 ∧ w.extractLsb' 7 3 = 0#3 ∧
      tickReject cRx (w.getLsbD 10) (w.extractLsb' 0 7) = none := by simpa using decode_ok_cases h
  exact ⟨hop, hzero, (tickReject_eq_none_iff _ _ _ _).1 hlegal⟩

/-- Settles O4: the words as sums of their fields, and the rows as the fields that the decoder checks. -/
theorem pktAndTickWordsMatchTheirRows : Obligations.PktAndTickWordsMatchTheirRows := by
  intro cRx w len r a n
  refine ⟨encode_pkt_toNat len, encode_tick_toNat r a n, ?_, ?_⟩
  · exact (and_maskL_eq_iff w 4#4).trans (decode_eq_pkt_iff cRx w).symm
  · rw [decode_eq_tick_iff, and_maskT_eq_iff, Instr.wf_tick_iff, and_assoc]

/-! ### The two round trips -/

/-- The word of a legal TICK decodes to it: each field is read back where the encoder put it. -/
theorem decode_encode_tick {cRx : Nat} {r a : Bool} {n : BitVec 7} (hwf : (Instr.tick r a n).wf cRx = true) :
    decode cRx .tick (encode (.tick r a n)) = .ok (.tick r a n) := by
  have hword := encode_tick_toNat r a n
  have hr := Bool.toNat_lt r
  have ha := Bool.toNat_lt a
  have hn := n.isLt
  have hready : (encode (.tick r a n)).getLsbD 11 = r := bit_eq_of_toNat (by omega)
  have havail : (encode (.tick r a n)).getLsbD 10 = a := bit_eq_of_toNat (by omega)
  have hbatch : (encode (.tick r a n)).extractLsb' 0 7 = n := BitVec.eq_of_toNat_eq (by rw [batchField_toNat]; omega)
  have hzero : (encode (.tick r a n)).extractLsb' 7 3 = 0#3 := (zeroFieldT_eq_zero_iff _).2 (by omega)
  have hdecode := decode_tick_of_fields (cRx := cRx) (opcodeOf_encode (.tick r a n)) hzero
  rw [hready, havail, hbatch] at hdecode
  exact hdecode hwf

/-- Settles O1: command by command, the fields that the decoder reads are those that the encoder wrote. -/
theorem decodeOfEncodeIsTheCommand : Obligations.DecodeOfEncodeIsTheCommand := by
  intro cRx i hwf
  cases i with
  | put b =>
    have hword := encode_put_toNat b
    have hb := b.isLt
    have hbyte : (encode (.put b)).extractLsb' 0 8 = b := BitVec.eq_of_toNat_eq (by rw [byteField_toNat]; omega)
    have hzero : (encode (.put b)).extractLsb' 8 4 = 0#4 := (zeroFieldB_eq_zero_iff _).2 (by omega)
    simpa only [Instr.port, hbyte] using (decode_eq_put_iff cRx _).2 ⟨opcodeOf_encode (.put b), hzero⟩
  | putt b =>
    have hword := encode_putt_toNat b
    have hb := b.isLt
    have hbyte : (encode (.putt b)).extractLsb' 0 8 = b := BitVec.eq_of_toNat_eq (by rw [byteField_toNat]; omega)
    have hzero : (encode (.putt b)).extractLsb' 8 4 = 0#4 := (zeroFieldB_eq_zero_iff _).2 (by omega)
    simpa only [Instr.port, hbyte] using (decode_eq_putt_iff cRx _).2 ⟨opcodeOf_encode (.putt b), hzero⟩
  | get => exact (decode_eq_get_iff cRx _).2 (by decide)
  | pkt len =>
    have hword := encode_pkt_toNat len
    have hlen : operandOf (encode (.pkt len)) = len := BitVec.eq_of_toNat_eq (by rw [operandOf_toNat]; omega)
    simpa only [Instr.port, hlen] using (decode_eq_pkt_iff cRx _).2 (opcodeOf_encode (.pkt len))
  | config => exact (decode_eq_config_iff cRx _).2 (by decide)
  | tick r a n => exact decode_encode_tick hwf

/-- Settles O2: the opcode and the fields of a decoded word, with the zero fields the decoder checked, are all of it. -/
theorem encodeOfDecodeIsTheWord : Obligations.EncodeOfDecodeIsTheWord := by
  intro cRx p w i h
  obtain ⟨rfl, hop, hzero, rfl⟩ | ⟨rfl, hop, hzero, rfl⟩ | ⟨rfl, hop, hzero, rfl⟩ | ⟨rfl, hop, rfl⟩ |
    ⟨rfl, hop, hzero, rfl⟩ | ⟨rfl, hop, hzero, hlegal, rfl⟩ := decode_ok_cases h
  all_goals rw [opcodeOf_eq_iff, BitVec.toNat_ofNat] at hop
  case inl =>
    rw [zeroFieldB_eq_zero_iff] at hzero
    exact ⟨BitVec.eq_of_toNat_eq (by rw [encode_put_toNat, byteField_toNat]; omega), rfl, rfl⟩
  case inr.inl =>
    rw [zeroFieldB_eq_zero_iff] at hzero
    exact ⟨BitVec.eq_of_toNat_eq (by rw [encode_putt_toNat, byteField_toNat]; omega), rfl, rfl⟩
  case inr.inr.inl =>
    rw [operandOf_eq_zero_iff] at hzero
    exact ⟨BitVec.eq_of_toNat_eq (by rw [encode, BitVec.toNat_ofNat]; omega), rfl, rfl⟩
  case inr.inr.inr.inl =>
    exact ⟨BitVec.eq_of_toNat_eq (by rw [encode_pkt_toNat, operandOf_toNat]; omega), rfl, rfl⟩
  case inr.inr.inr.inr.inl =>
    rw [operandOf_eq_zero_iff] at hzero
    exact ⟨BitVec.eq_of_toNat_eq (by rw [encode, BitVec.toNat_ofNat]; omega), rfl, rfl⟩
  case inr.inr.inr.inr.inr =>
    rw [zeroFieldT_eq_zero_iff] at hzero
    refine ⟨BitVec.eq_of_toNat_eq ?_, rfl, (tickReject_eq_none_iff _ _ _ _).1 hlegal⟩
    rw [encode_tick_toNat, bit_toNat, bit_toNat, batchField_toNat]
    omega

/-- The port of a word that decodes is its command's. -/
theorem decode_port {cRx : Nat} {p : Port} {w : Word} {i : Instr} (h : decode cRx p w = .ok i) : i.port = p := by
  obtain ⟨-, hport, -⟩ := encodeOfDecodeIsTheWord cRx p w i h
  exact hport

/-- A word that decodes is that of a legal command. -/
theorem decode_wf {cRx : Nat} {p : Port} {w : Word} {i : Instr} (h : decode cRx p w = .ok i) : i.wf cRx = true := by
  obtain ⟨-, -, hwf⟩ := encodeOfDecodeIsTheWord cRx p w i h
  exact hwf

/-- Settles O5: words of 95_test_vectors.md section 2, evaluated. -/
theorem sampleWordsDecode : Obligations.SampleWordsDecode := by
  unfold Obligations.SampleWordsDecode
  decide

/-! ### Which words R71 refuses, format by format -/

theorem decodeB_eq_error_iff (mk : Byte → Instr) (w : Word) (why : Reject) :
    decodeB mk w = .error why ↔ why = .nonzeroField ∧ w.toNat / 256 % 16 ≠ 0 := by
  simp only [decodeB, zeroFieldB_eq_zero_iff]
  split <;> simp_all [eq_comm]

theorem decodeZ_eq_error_iff (i : Instr) (w : Word) (why : Reject) :
    decodeZ i w = .error why ↔ why = .nonzeroField ∧ w.toNat % 4096 ≠ 0 := by
  simp only [decodeZ, operandOf_eq_zero_iff]
  split <;> simp_all [eq_comm]

theorem decodeL_ne_error (mk : BitVec 12 → Instr) (w : Word) (why : Reject) : decodeL mk w ≠ .error why := nofun

theorem tickReject_eq_some_iff (cRx : Nat) (w : Word) (why : Reject) :
    tickReject cRx (w.getLsbD 10) (w.extractLsb' 0 7) = some why ↔
      (why = .batchWithoutData ∧ w.toNat / 1024 % 2 = 0 ∧ w.toNat % 128 ≠ 0) ∨
      (why = .batchTooLong ∧ (w.toNat / 1024 % 2 = 0 → w.toNat % 128 = 0) ∧ cRx < w.toNat % 128) := by
  simp only [tickReject, availBit_eq_false_iff, ne_eq, batchField_eq_zero_iff, batchField_toNat]
  split
  · rename_i hnone
    simp [hnone, eq_comm]
  · rename_i hlegal
    have hdata : w.toNat / 1024 % 2 = 0 → w.toNat % 128 = 0 := by simpa using hlegal
    split <;> simp_all [eq_comm]

theorem decodeT_eq_error_iff (cRx : Nat) (mk : Bool → Bool → BitVec 7 → Instr) (w : Word) (why : Reject) :
    decodeT cRx mk w = .error why ↔
      (why = .nonzeroField ∧ w.toNat / 128 % 8 ≠ 0) ∨
      (why = .batchWithoutData ∧ w.toNat / 128 % 8 = 0 ∧ w.toNat / 1024 % 2 = 0 ∧ w.toNat % 128 ≠ 0) ∨
      (why = .batchTooLong ∧ w.toNat / 128 % 8 = 0 ∧ (w.toNat / 1024 % 2 = 0 → w.toNat % 128 = 0) ∧
        cRx < w.toNat % 128) := by
  simp only [decodeT, zeroFieldT_eq_zero_iff]
  split
  · rename_i hzero
    have hreject := tickReject_eq_some_iff cRx w why
    split <;> simp_all
  · simp_all [eq_comm]

/-- Settles O7: the port is the opcode's own, so the opcode's format alone decides, by its own list of cases. -/
theorem malformedWordsAreRefusedExactly : Obligations.MalformedWordsAreRefusedExactly := by
  intro cRx p w hassigned
  have hformat : decode cRx p w = decodeFormat cRx w := by
    obtain ⟨hop, rfl⟩ | ⟨hop, rfl⟩ := hassigned
    · simp [decode, portOf_of_command hop]
    · simp [decode, portOf_of_tick hop]
  have hop : w.toNat / 4096 ∈ [1, 2, 3, 4, 5, 8] := by
    rcases hassigned with ⟨hop, -⟩ | ⟨hop, -⟩ <;> simp_all; omega
  rw [hformat]
  simp only [decodeFormat, opcodeOf_toNat]
  generalize w.toNat / 4096 = op at hop ⊢
  simp only [List.mem_cons, List.not_mem_nil, or_false] at hop
  rcases hop with rfl | rfl | rfl | rfl | rfl | rfl
  · simp [decodeB_eq_error_iff]
  · simp [decodeB_eq_error_iff]
  · simp [decodeZ_eq_error_iff]
  · simp [decodeL_ne_error]
  · simp [decodeZ_eq_error_iff]
  · simp only [decodeT_eq_error_iff]
    refine ⟨by simp, by simp, by simp, ?_⟩
    rintro why (⟨rfl, -⟩ | ⟨rfl, -⟩ | ⟨rfl, -⟩) <;> simp

end Sys2Proof

/-! PROOFS. PUT, PUTT, GET and CONFIG (40_queue_ops.md R76 to R89, 42_accountant.md R112): what each does as it issues,
and what it leaves unchanged. -/

namespace Sys2Proof.Machine

/-- The end of an issue action or of a micro-step moves `ip` and nothing else (R75). -/
theorem State.finishIfDone_frame (s : State) : s.finishIfDone = { s with ip := s.finishIfDone.ip } := by
  unfold State.finishIfDone
  split <;> rfl

/-! ### PUT and PUTT -/

theorem stringPath_ne_nil (b : Byte) : stringPath b ≠ [] := by
  unfold stringPath
  split <;> simp

/-- Settles O16. -/
theorem putLoadsOneMicroStep : Obligations.PutLoadsOneMicroStep := fun s b => execPut_eq_next b s

/-- PUTT is never complete when it issues: the string path is never empty (R79). -/
theorem exec_putt_eq_next (b : Byte) (s : State) : exec (.putt b) s = .next { s with mainPend := stringPath b } :=
  congrArg Host.Outcome.next (State.finishIfDone_of_pending (s := s.setPend (stringPath b)) (stringPath_ne_nil b))

/-- Settles O19: the string path of LF is CR and then LF. -/
theorem puttOfLineFeedLoadsCrThenLf : Obligations.PuttOfLineFeedLoadsCrThenLf := fun s => exec_putt_eq_next 0x0A#8 s

theorem exec_put_frame {b : Byte} {s t : State} (h : exec (.put b) s = .next t) :
    t = { s with mainPend := [.putByte b] } :=
  (Host.Outcome.next.inj ((putLoadsOneMicroStep s b).symm.trans h)).symm

theorem exec_putt_frame {b : Byte} {s t : State} (h : exec (.putt b) s = .next t) :
    t = { s with mainPend := stringPath b } :=
  (Host.Outcome.next.inj ((exec_putt_eq_next b s).symm.trans h)).symm

/-! ### GET -/

theorem exec_get_of_unread {s : State} (hunread : s.rxqCursor.toNat < s.rxqCount.toNat)
    (hcap : s.rxqCount.toNat ≤ s.cfg.cRx) :
    exec .get s = .next (((s.setRes (getResult (s.byteAt .rx s.rxqCursor.toNat))).setRxq s.rxqCount
      (s.rxqCursor + 1#7)).finishIfDone) := by
  have hindex : s.rxqCursor.toNat < s.cfg.cRx := by omega
  simp [exec, execGet, hunread, hindex]

theorem exec_get_of_drained {s : State} (hdrained : s.rxqCount.toNat ≤ s.rxqCursor.toNat) :
    exec .get s = .next (s.setRes s.cfg.noData).finishIfDone := by
  simp [exec, execGet, Nat.not_lt.2 hdrained]

/-- A cursor below the count has room to advance. -/
theorem cursor_add_one_toNat {s : State} (hunread : s.rxqCursor.toNat < s.rxqCount.toNat) :
    (s.rxqCursor + 1#7).toNat = s.rxqCursor.toNat + 1 := by
  have hcount := s.rxqCount.isLt
  rw [BitVec.toNat_add, BitVec.toNat_ofNat]
  omega

/-- Settles O25: with nothing pending GET completes at once. -/
theorem getTakesTheNextUnreadByte : Obligations.GetTakesTheNextUnreadByte := by
  intro s hpend hcap
  refine ⟨fun hunread => ?_, fun hdrained => ?_⟩
  · exact (exec_get_of_unread hunread hcap).trans
      (congrArg Host.Outcome.next (State.finishIfDone_of_done (by exact hpend)))
  · exact (exec_get_of_drained hdrained).trans
      (congrArg Host.Outcome.next (State.finishIfDone_of_done (by exact hpend)))

/-- A GET writes `res`, the cursor and `ip`, and nothing else (R85, R87). -/
theorem exec_get_frame {s t : State} (h : exec .get s = .next t) :
    t = { s with res := t.res, resWritten := true, rxqCursor := t.rxqCursor, ip := t.ip } := by
  obtain ⟨-, -, ht⟩ | ⟨-, -, ht⟩ | ⟨-, ht⟩ := execGet_cases h
  · rw [Host.Outcome.next.inj ht, State.finishIfDone_frame]; rfl
  · contradiction
  · rw [Host.Outcome.next.inj ht, State.finishIfDone_frame]; rfl

theorem getResult_cr : getResult 0x0D#8 = 0x000A#16 := rfl

theorem getResult_lf : getResult 0x0A#8 = 0x000A#16 := rfl

theorem getResult_toNat_of_ne_cr {b : Byte} (hb : b ≠ 0x0D#8) : (getResult b).toNat = b.toNat := by
  rw [getResult, if_neg hb, BitVec.toNat_setWidth_of_le (by decide)]

/-- GET's result has a zero high byte, CR or not (R89). -/
theorem getResult_toNat_lt (b : Byte) : (getResult b).toNat < 0x100 := by
  by_cases hb : b = 0x0D#8
  · rw [hb, getResult_cr]; decide
  · rw [getResult_toNat_of_ne_cr hb]; exact b.isLt

theorem highByte_eq_zero_iff (v : Word) : v.extractLsb' 8 8 = 0#8 ↔ v.toNat < 0x100 := by
  rw [← BitVec.toNat_inj, BitVec.extractLsb'_toNat, Nat.shiftRight_eq_div_pow, BitVec.toNat_ofNat]
  have hv := v.isLt
  omega

/-- Settles O26: a data result is below 0x100, and NO_DATA is not (R13). -/
theorem dataResultIsNeverNoData : Obligations.DataResultIsNeverNoData := by
  intro s hwf hcap
  obtain ⟨-, -, -, -, -, hnoData⟩ := hwf
  have hhigh : s.cfg.noData.extractLsb' 8 8 ≠ 0#8 := by rw [ne_eq, highByte_eq_zero_iff]; omega
  by_cases hunread : s.rxqCursor.toNat < s.rxqCount.toNat
  · have hlow := getResult_toNat_lt (s.byteAt .rx s.rxqCursor.toNat)
    refine ⟨_, exec_get_of_unread hunread hcap, by simp [State.readRes], hhigh, fun _ => ?_, fun hdrained => by omega⟩
    simp only [State.finishIfDone_res, State.setRxq_res, State.setRes_res]
    exact ⟨(highByte_eq_zero_iff _).2 hlow, fun heq => by rw [heq] at hlow; omega⟩
  · exact ⟨_, exec_get_of_drained (by omega), by simp [State.readRes], hhigh, fun h => absurd h hunread,
      fun _ => by simp⟩

/-- Settles O28: the translation stands in the result only, so the LF after a translated CR is still there. -/
theorem crLfPairReadsAsTwoLineFeeds : Obligations.CrLfPairReadsAsTwoLineFeeds := by
  refine ⟨fun s b hunread hcap hbyte => ?_, fun s hcap hpair hcr hlf => ?_⟩
  · refine ⟨_, exec_get_of_unread hunread hcap, by simp, ?_, ?_⟩
    · rintro rfl
      simp [hbyte, getResult_cr]
    · intro hb
      simp [hbyte, getResult_toNat_of_ne_cr hb]
  · have hunread : s.rxqCursor.toNat < s.rxqCount.toNat := by omega
    have hnext := cursor_add_one_toNat hunread
    refine ⟨_, _, exec_get_of_unread hunread hcap, by simp [hcr, getResult_cr], by simp [hcr],
      exec_get_of_unread ?_ ?_, ?_⟩
    · simp only [State.finishIfDone_rxqCursor, State.finishIfDone_rxqCount, State.setRxq_rxqCursor,
        State.setRxq_rxqCount, hnext]
      omega
    · simpa using hcap
    · simp only [State.finishIfDone_res, State.setRxq_res, State.setRes_res, State.finishIfDone_byteAt,
        State.setRxq_byteAt, State.setRes_byteAt, State.finishIfDone_rxqCursor, State.setRxq_rxqCursor, hnext, hlf,
        getResult_lf]

/-- Settles O27, by induction on the number of GETs still to come: each leaves the batch and advances the cursor. -/
theorem getsReturnTheBatchInOrder : Obligations.GetsReturnTheBatchInOrder := by
  intro n
  induction n with
  | zero =>
    intro s hcap hunread
    refine ⟨_, execAll_cons_of_next (exec_get_of_unread hunread hcap), ?_⟩
    simp [cursor_add_one_toNat hunread]
  | succ n ih =>
    intro s hcap hunread
    have hnow : s.rxqCursor.toNat < s.rxqCount.toNat := by omega
    have hnext := cursor_add_one_toNat hnow
    rw [List.replicate_succ, execAll_cons_of_next (exec_get_of_unread hnow hcap)]
    obtain ⟨t, hrun, hres, hcursor, hcount⟩ := ih (((s.setRes (getResult (s.byteAt .rx s.rxqCursor.toNat))).setRxq
      s.rxqCount (s.rxqCursor + 1#7)).finishIfDone) (by simpa using hcap) (by simp [hnext]; omega)
    refine ⟨t, hrun, ?_, ?_, ?_⟩
    · rw [hres]
      simp [hnext, Nat.add_assoc, Nat.add_comm 1 n]
    · simp [hcursor, hnext]; omega
    · simpa using hcount

/-! ### CONFIG -/

theorem exec_config_frame {s t : State} (h : exec .config s = .next t) :
    t = { s with accRxSize := 0, hist := s.hist ++ [.outEpEnable], ip := t.ip } := by
  rw [← Host.Outcome.next.inj h, State.finishIfDone_frame]
  rfl

/-- Settles O24: each command's frame leaves every buffer as it is. -/
theorem nonStoringCommandsFrame : Obligations.NonStoringCommandsFrame := by
  intro s t
  refine ⟨fun i hi h x k => ?_, fun b h => ?_, exec_get_frame, exec_config_frame⟩
  · simp only [List.mem_cons, List.not_mem_nil, or_false] at hi
    obtain rfl | rfl := hi
    · rw [exec_get_frame h]; rfl
    · rw [exec_config_frame h]; rfl
  · obtain h | h := h
    · rw [exec_put_frame h]; exact ⟨rfl, fun _ _ => rfl⟩
    · rw [exec_putt_frame h]; exact ⟨rfl, fun _ _ => rfl⟩

end Sys2Proof.Machine

/-! PROOFS. PKT (42_accountant.md R105 to R121): one packet of each class, what a packet leaves unchanged, and runs of
packets. -/

namespace Sys2Proof.Machine

/-! ### The copy of the payload -/

@[simp] theorem copyPayload_cfg (len : BitVec 12) (s : State) : (copyPayload len s).cfg = s.cfg := rfl

@[simp] theorem copyPayload_accRxSize (len : BitVec 12) (s : State) : (copyPayload len s).accRxSize = s.accRxSize := rfl

@[simp] theorem copyPayload_accRxCount (len : BitVec 12) (s : State) :
    (copyPayload len s).accRxCount = s.accRxCount := rfl

@[simp] theorem copyPayload_mainPend (len : BitVec 12) (s : State) : (copyPayload len s).mainPend = s.mainPend := rfl

@[simp] theorem copyPayload_ip (len : BitVec 12) (s : State) : (copyPayload len s).ip = s.ip := rfl

@[simp] theorem copyPayload_hist (len : BitVec 12) (s : State) : (copyPayload len s).hist = s.hist := rfl

/-- A byte that the OUT packet lane lists is that byte of the packet (10_state.md R40). -/
theorem State.packetBytes_getD_of_listed {s : State} {n i : Nat} {b : Byte} (hi : i < n)
    (hlisted : s.outLane[i]? = some b) (d : Byte) : (s.packetBytes n).getD i d = b := by
  simp [State.packetBytes, hi, hlisted]

theorem copyPayload_byteAt_of_listed {len : BitVec 12} {s : State} {i : Nat} {b : Byte}
    (hi : i < min len.toNat s.cfg.rxbufCap) (hlisted : s.outLane[i]? = some b) :
    (copyPayload len s).byteAt .pkt i = b := by
  rw [copyPayload, State.countDraw_byteAt, State.byteAt_store_self, if_pos (by simpa using hi)]
  exact State.packetBytes_getD_of_listed hi hlisted _

theorem copyPayload_byteAt_of_le {len : BitVec 12} {s : State} {i : Nat} (hi : min len.toNat s.cfg.rxbufCap ≤ i) :
    (copyPayload len s).byteAt .pkt i = s.byteAt .pkt i := by
  rw [copyPayload, State.countDraw_byteAt, State.byteAt_store_self, if_neg (by rw [State.packetBytes_length]; omega)]

/-! ### One packet -/

/-- The class of a packet decides the accountant's counters, `main.pend` and the history, and nothing else. -/
theorem classify_frame (len : BitVec 12) (s : State) :
    classify len s = { s with accRxSize := (classify len s).accRxSize, accRxCount := (classify len s).accRxCount,
                              mainPend := (classify len s).mainPend, hist := (classify len s).hist } := by
  obtain ⟨-, h⟩ | ⟨-, h⟩ | ⟨-, -, h⟩ | ⟨-, -, h⟩ := classify_cases len s
  all_goals rw [h]; rfl

theorem exec_pkt_frame {len : BitVec 12} {s t : State} (h : exec (.pkt len) s = .next t) :
    t = { s with pktbuf := (copyPayload len s).pktbuf, accRxSize := t.accRxSize, accRxCount := t.accRxCount,
                 mainPend := t.mainPend, ip := t.ip, hist := t.hist, drawCount := s.drawCount + 1 } := by
  rw [← Host.Outcome.next.inj h, State.finishIfDone_frame, classify_frame]
  rfl

theorem exec_pkt_pktbuf {len : BitVec 12} {s t : State} (h : exec (.pkt len) s = .next t) :
    t.pktbuf = (copyPayload len s).pktbuf := by
  rw [exec_pkt_frame h]

/-- The packet buffer after a PKT is the one that the copy left. -/
theorem exec_pkt_byteAt_pkt {len : BitVec 12} {s t : State} (h : exec (.pkt len) s = .next t) (i : Nat) :
    t.byteAt .pkt i = (copyPayload len s).byteAt .pkt i := by
  rw [exec_pkt_frame h]
  rfl

/-- Settles O41: no class of packet touches the packet buffer after the copy. -/
theorem pktStoresThePayloadBounded : Obligations.PktStoresThePayloadBounded := by
  refine fun s len => ⟨_, rfl, fun i b hi hlisted => ?_, fun i hi => ?_⟩
  · rw [exec_pkt_byteAt_pkt rfl, copyPayload_byteAt_of_listed hi hlisted]
  · rw [exec_pkt_byteAt_pkt rfl, copyPayload_byteAt_of_le hi]

/-- Settles O42: the copy and the class each touch their own fields. -/
theorem pktFrame : Obligations.PktFrame := by
  intro s t len h
  have hpktbuf := exec_pkt_pktbuf h
  refine ⟨?_, fun x i hx => ?_, fun i hi => ?_⟩
  · rw [hpktbuf]
    exact exec_pkt_frame h
  · rw [exec_pkt_frame h]
    cases x
    · rfl
    · rfl
    · contradiction
  · rw [exec_pkt_byteAt_pkt h, copyPayload_byteAt_of_le hi]

/-- An oversized packet queues its line, so it is not complete when it issues (R107). -/
theorem exec_pkt_of_oversized {len : BitVec 12} {s : State} (hlen : s.cfg.maxPkt < len.toNat) :
    exec (.pkt len) s = .next (oversizedPacket len (copyPayload len s)) := by
  have hclass : classify len (copyPayload len s) = oversizedPacket len (copyPayload len s) := if_pos hlen
  have hpend : (oversizedPacket len (copyPayload len s)).mainPend ≠ [] := by
    simp [oversizedPacket, concludeTransfer, textSteps_illegalText]
  rw [exec, execPkt, hclass, State.finishIfDone_of_pending hpend]

theorem exec_pkt_of_fullSize {len : BitVec 12} {s : State} (hlen : len.toNat = s.cfg.maxPkt) :
    exec (.pkt len) s = .next (fullSizePacket len (copyPayload len s)).finishIfDone := by
  have hnotOver : ¬ (copyPayload len s).cfg.maxPkt < len.toNat := Nat.not_lt.2 hlen.le
  have hclass : classify len (copyPayload len s) = fullSizePacket len (copyPayload len s) :=
    (if_neg hnotOver).trans (if_pos hlen)
  rw [exec, execPkt, hclass]

theorem exec_pkt_of_short {len : BitVec 12} {s : State} (hlen : len.toNat < s.cfg.maxPkt) :
    exec (.pkt len) s = .next (shortPacket len (copyPayload len s)).finishIfDone := by
  have hnotOver : ¬ (copyPayload len s).cfg.maxPkt < len.toNat := Nat.not_lt.2 hlen.le
  have hclass : classify len (copyPayload len s) = shortPacket len (copyPayload len s) :=
    (if_neg hnotOver).trans (if_neg hlen.ne)
  rw [exec, execPkt, hclass]

/-- Settles O38. -/
theorem fullSizePacketAccumulates : Obligations.FullSizePacketAccumulates := by
  intro s len hpend hlen
  refine ⟨_, exec_pkt_of_fullSize hlen, ?_⟩
  simp [fullSizePacket, hpend, totalWith]

/-- Settles O39: the line is written out by `textSteps_illegalText`. -/
theorem oversizedPacketEndsTheTransfer : Obligations.OversizedPacketEndsTheTransfer := by
  intro s len hlen
  refine ⟨_, exec_pkt_of_oversized hlen, ?_⟩
  simp [oversizedPacket, concludeTransfer, textSteps_illegalText]

/-- Settles O40: on TARGET nothing is queued, off it the line and the marker. -/
theorem shortPacketClosesTheTransfer : Obligations.ShortPacketClosesTheTransfer := by
  intro s len total hpend hlen htotal
  refine ⟨_, exec_pkt_of_short hlen, ?_⟩
  have hsum : totalWith len s = total := htotal.symm
  by_cases htarget : total = s.cfg.target
  · simp [shortPacket, concludeTransfer, hsum, htarget, hpend]
  · simp [shortPacket, concludeTransfer, hsum, htarget, textSteps_mismatchText, marker]

/-- Settles O43: a class that closes writes the next index, which differs from this one below a positive width. -/
theorem transferClosesExactlyOnShortOrOversized : Obligations.TransferClosesExactlyOnShortOrOversized := by
  intro s t len _ hacc hwidth h
  have hpow : 2 ≤ 2 ^ s.cfg.wXfer := Nat.le_self_pow hwidth.ne' 2
  have hmoves : (s.accRxCount + 1) % 2 ^ s.cfg.wXfer ≠ s.accRxCount := by
    have hcount := hacc.2
    rcases Nat.lt_or_ge (s.accRxCount + 1) (2 ^ s.cfg.wXfer) with hlt | hge
    · rw [Nat.mod_eq_of_lt hlt]; omega
    · rw [show s.accRxCount + 1 = 2 ^ s.cfg.wXfer by omega, Nat.mod_self]; omega
  have hopen : len.toNat = s.cfg.maxPkt → t.accRxCount = s.accRxCount := by
    intro hlen
    rw [← Host.Outcome.next.inj ((exec_pkt_of_fullSize hlen).symm.trans h)]
    simp [fullSizePacket]
  have hclose : len.toNat ≠ s.cfg.maxPkt →
      t.accRxSize = 0 ∧ t.accRxCount = (s.accRxCount + 1) % 2 ^ s.cfg.wXfer := by
    intro hne
    rcases Nat.lt_or_gt_of_ne hne with hlt | hgt
    · rw [← Host.Outcome.next.inj ((exec_pkt_of_short hlt).symm.trans h)]
      unfold shortPacket
      split <;> simp [concludeTransfer]
    · rw [← Host.Outcome.next.inj ((exec_pkt_of_oversized hgt).symm.trans h)]
      simp [oversizedPacket, concludeTransfer]
  refine ⟨⟨fun heq => ?_, hopen⟩, hclose⟩
  by_contra hne
  exact hmoves ((hclose hne).2.symm.trans heq)

/-! ### Runs of packets -/

theorem execAll_append_of_next {is js : List Instr} {s t : State} (h : execAll is s = .next t) :
    execAll (is ++ js) s = execAll js t := by
  induction is generalizing s with
  | nil => rw [Host.Outcome.next.inj h]; rfl
  | cons i is ih =>
    simp only [List.cons_append, execAll] at h ⊢
    split at h
    · exact ih h
    · contradiction
    · contradiction

theorem execAll_singleton_of_next {i : Instr} {s t : State} (h : exec i s = .next t) : execAll [i] s = .next t :=
  execAll_cons_of_next h

/-- The length MAX_PKT as an operand of PKT (R7). -/
theorem maxPktOperand_toNat {c : Config} (hwf : c.Wf) : (BitVec.ofNat 12 c.maxPkt).toNat = c.maxPkt := by
  obtain ⟨-, -, ⟨-, hmax⟩, -⟩ := hwf
  rw [BitVec.toNat_ofNat, Nat.mod_eq_of_lt (by omega)]

/-- A run of full-size packets adds MAX_PKT a packet, modulo 2^W_SIZE, and does nothing else to the transfer (R121). -/
theorem execAll_fullSize_run (n : Nat) (s : State) (len : BitVec 12) (hlen : len.toNat = s.cfg.maxPkt)
    (hpend : s.mainPend = []) :
    ∃ t, execAll (List.replicate n (.pkt len)) s = .next t ∧ t.cfg = s.cfg ∧
      t.accRxSize ≡ s.accRxSize + n * s.cfg.maxPkt [MOD 2 ^ s.cfg.wSize] ∧
      (s.accRxSize < 2 ^ s.cfg.wSize → t.accRxSize < 2 ^ s.cfg.wSize) ∧ t.accRxCount = s.accRxCount ∧
      t.hist = s.hist ∧ t.mainPend = [] := by
  induction n generalizing s with
  | zero => exact ⟨s, rfl, rfl, by rw [Nat.zero_mul, Nat.add_zero], id, rfl, rfl, hpend⟩
  | succ n ih =>
    obtain ⟨u, hu, husize, hucount, hupend, huhist, -⟩ := fullSizePacketAccumulates s len hpend hlen
    have hucfg : u.cfg = s.cfg := by rw [exec_pkt_frame hu]
    obtain ⟨t, ht, htcfg, htsize, htbound, htcount, hthist, htpend⟩ := ih u (hucfg ▸ hlen) hupend
    rw [hucfg] at htcfg htsize htbound
    refine ⟨t, (execAll_cons_of_next hu).trans ht, htcfg, ?_, fun _ => htbound ?_, htcount.trans hucount,
      hthist.trans huhist, htpend⟩
    · calc t.accRxSize ≡ u.accRxSize + n * s.cfg.maxPkt [MOD 2 ^ s.cfg.wSize] := htsize
        _ ≡ s.accRxSize + s.cfg.maxPkt + n * s.cfg.maxPkt [MOD 2 ^ s.cfg.wSize] := by
          rw [husize, hlen]
          exact (Nat.mod_modEq _ _).add_right _
        _ = s.accRxSize + (n + 1) * s.cfg.maxPkt := by ring
    · rw [husize]
      exact Nat.mod_lt _ (Nat.two_pow_pos _)

/-- Settles O46: the size stays below 2^W_SIZE, so it is the residue that the run gives. -/
theorem fullSizeRunWrapsTheSize : Obligations.FullSizeRunWrapsTheSize := by
  intro n s hwf hacc hpend
  obtain ⟨t, hrun, -, hsize, hbound, hcount, hhist, htpend⟩ :=
    execAll_fullSize_run n s _ (maxPktOperand_toNat hwf) hpend
  exact ⟨t, hrun, (Nat.mod_eq_of_lt (hbound hacc.1)).symm.trans hsize, hcount, hhist, htpend⟩

/-- After an oversized packet the size is 0, so a full-size packet leaves its own length (R107, R119). -/
theorem fullSize_after_size_zero {len : BitVec 12} {t u : State} (hzero : t.accRxSize = 0)
    (hlen : len.toNat = t.cfg.maxPkt) (h : exec (.pkt len) t = .next u) :
    u.accRxSize = t.cfg.maxPkt % 2 ^ t.cfg.wSize := by
  rw [← Host.Outcome.next.inj ((exec_pkt_of_fullSize hlen).symm.trans h)]
  simp [fullSizePacket, totalWith, hzero, hlen]

/-- And a short packet is judged by its own length (R108, R119). -/
theorem short_after_size_zero {len : BitVec 12} {t u : State} (hzero : t.accRxSize = 0)
    (hlen : len.toNat < t.cfg.maxPkt) (h : exec (.pkt len) t = .next u) :
    u.hist = t.hist ++ [if len.toNat % 2 ^ t.cfg.wSize = t.cfg.target then .transferOk t.accRxCount t.cfg.target
      else .sizeMismatch t.accRxCount (len.toNat % 2 ^ t.cfg.wSize)] := by
  rw [← Host.Outcome.next.inj ((exec_pkt_of_short hlen).symm.trans h)]
  have htotal : totalWith len t = len.toNat % 2 ^ t.cfg.wSize := by simp [totalWith, hzero]
  by_cases htarget : len.toNat % 2 ^ t.cfg.wSize = t.cfg.target <;>
    simp [shortPacket, concludeTransfer, htotal, htarget]

/-- Settles O45: the short packet meets the size that the run of full-size packets left. -/
theorem transferOfManyPackets : Obligations.TransferOfManyPackets := by
  intro s n len total hwf hpend hlen htotal
  refine ⟨?_, fun big next t u hbig ht hu => ?_⟩
  · obtain ⟨u, hrun, hcfg, hsize, -, hcount, hhist, hupend⟩ :=
      execAll_fullSize_run n s _ (maxPktOperand_toNat hwf) hpend
    have htotal' : total = (u.accRxSize + len.toNat) % 2 ^ u.cfg.wSize := by
      rw [hcfg, htotal]
      exact (hsize.add_right len.toNat).symm
    obtain ⟨t, ht, htsize, htcount, hmismatch, hok⟩ :=
      shortPacketClosesTheTransfer u len total hupend (hcfg ▸ hlen) htotal'
    rw [hcfg, hcount, hhist] at hok hmismatch
    rw [hcfg, hcount] at htcount
    refine ⟨t, (execAll_append_of_next hrun).trans (execAll_singleton_of_next ht), htsize, htcount,
      fun htarget => ?_, fun htarget => ?_⟩
    · obtain ⟨hthist, htpend, -⟩ := hok htarget
      exact ⟨htpend, hthist⟩
    · obtain ⟨hthist, -, htpend⟩ := hmismatch htarget
      exact ⟨hthist, by simpa using htpend⟩
  · have htcfg : t.cfg = s.cfg := by rw [exec_pkt_frame ht]
    obtain ⟨t', ht', -, -, hzero, -⟩ := oversizedPacketEndsTheTransfer s big hbig
    obtain rfl := Host.Outcome.next.inj (ht'.symm.trans ht)
    rw [← htcfg]
    exact ⟨fun hfull => fullSize_after_size_zero hzero hfull hu, fun hshort => short_after_size_zero hzero hshort hu⟩

end Sys2Proof.Machine

/-! PROOFS. TICK's frame and its rejects (41_tick.md R90, R96), and which meaning writes which register. -/

namespace Sys2Proof.Machine

/-! ### The frame of a tick -/

/-- A tick writes the two queues, the history and ENV's answer counter, and nothing else (R90). -/
theorem exec_tick_frame {r a : Bool} {n : BitVec 7} {s u : State} (h : exec (.tick r a n) s = .next u) :
    u = { s with txqCount := u.txqCount, txqReject := u.txqReject, txqZlp := u.txqZlp, rxbuf := u.rxbuf,
                 rxqCount := u.rxqCount, rxqCursor := u.rxqCursor, hist := u.hist, drawCount := s.drawCount + 1 } := by
  obtain ⟨-, t, ht, rfl⟩ := execTick_next h
  rw [rxSide_frame, txSide_frame ht]
  rfl

/-- A byte outside the refill stays (R98 to R101). -/
theorem rxSide_byteAt_of_outside {a : Bool} {n : BitVec 7} {s : State} {i : Nat}
    (hi : ¬ (s.rxqCursor = s.rxqCount ∧ a = true ∧ i < n.toNat)) :
    (rxSide a n s).byteAt .rx i = s.byteAt .rx i := by
  by_cases hskip : s.rxqCursor ≠ s.rxqCount ∨ a = false
  · rw [rxSide_of_undrained hskip]
  · simp only [not_or, not_not, Bool.not_eq_false] at hskip
    obtain ⟨hdrained, rfl⟩ := hskip
    rw [rxSide_of_drained hdrained, refillRx_byteAt_of_le]
    exact Nat.not_lt.1 fun hlt => hi ⟨hdrained, rfl, hlt⟩

/-- Settles O35: the TX side does not touch the RX queue, so the refill is decided by the state before the tick. -/
theorem tickFrame : Obligations.TickFrame := by
  intro s u r a n h
  refine ⟨exec_tick_frame h, fun x i hx => ?_, fun i hi => ?_⟩
  · rw [exec_tick_frame h]
    cases x
    · rfl
    · contradiction
    · rfl
  · obtain ⟨-, t, ht, rfl⟩ := execTick_next h
    have hframe := txSide_frame ht
    have hrx : t.byteAt .rx i = s.byteAt .rx i := congrArg (·.byteAt .rx i) hframe
    have hi' : ¬ (t.rxqCursor = t.rxqCount ∧ a = true ∧ i < n.toNat) := by rw [hframe]; exact hi
    rw [State.countDraw_byteAt, rxSide_byteAt_of_outside hi', hrx]

/-! ### Rejects -/

theorem txSide_of_counted_reject {s : State} (hpend : s.txPending = true)
    (hcount : s.txqReject.toNat + 1 ≤ s.cfg.maxReject) :
    txSide false s = .ok (s.setTxq s.txqCount (BitVec.ofNat 3 (s.txqReject.toNat + 1)) s.txqZlp) := by
  simp [txSide, hpend, rejectTx, Nat.not_lt.2 hcount]

theorem txSide_of_discard {s : State} (hpend : s.txPending = true)
    (hcount : s.cfg.maxReject < s.txqReject.toNat + 1) :
    txSide false s = .ok ((s.record (.txDiscard s.txqCount.toNat)).setTxq 0#7 0#3 s.discardZlp) := by
  simp [txSide, hpend, rejectTx, hcount, discardTx]

/-- A counted reject fits the 3 bits of `txq.reject`, since MAX_REJECT is at most 6 (R9, R24). -/
theorem countedReject_toNat {s : State} (hmax : s.cfg.maxReject ≤ 6)
    (hcount : s.txqReject.toNat + 1 ≤ s.cfg.maxReject) :
    (BitVec.ofNat 3 (s.txqReject.toNat + 1)).toNat = s.txqReject.toNat + 1 := by
  rw [BitVec.toNat_ofNat, Nat.mod_eq_of_lt (by omega)]

/-- Settles O30: the RX side leaves what the reject wrote, and a put writes the count alone. -/
theorem rejectCountsThenDiscards : Obligations.RejectCountsThenDiscards := by
  intro s a n hwf hmax hpend
  have hpend' := s.txPending_eq_true_iff.2 hpend
  refine ⟨fun hcount => ?_, fun hcount => ?_, fun b t hput => ?_⟩
  · refine ⟨_, execTick_of_ok hwf (txSide_of_counted_reject hpend' hcount), ?_⟩
    simpa using countedReject_toNat hmax hcount
  · refine ⟨_, execTick_of_ok hwf (txSide_of_discard hpend' hcount), ?_⟩
    simp [State.discardZlp]
  · obtain ⟨-, rfl⟩ := putByte_eq_some.1 hput
    simp

/-- A stalled tick: R = 0, no batch (S5). -/
abbrev stalledTick : Instr := .tick false false 0#7

theorem stalledTick_wf (cRx : Nat) : stalledTick.wf cRx = true := by simp [Instr.wf]

/-- A stalled tick up to MAX_REJECT only counts. -/
theorem exec_stalledTick_of_counted {s : State} (hpend : s.txPending = true)
    (hcount : s.txqReject.toNat + 1 ≤ s.cfg.maxReject) :
    exec stalledTick s =
      .next (s.setTxq s.txqCount (BitVec.ofNat 3 (s.txqReject.toNat + 1)) s.txqZlp).countDraw := by
  refine (execTick_of_ok (stalledTick_wf _) (txSide_of_counted_reject hpend hcount)).trans ?_
  rw [rxSide_of_undrained (.inr rfl)]

/-- As many stalled ticks as MAX_REJECT allows count, and leave the batch, the flag and the history. -/
theorem execAll_stalledTicks_count (k : Nat) (s : State) (hmax : s.cfg.maxReject ≤ 6) (hpend : s.txPending = true)
    (hcount : s.txqReject.toNat + k ≤ s.cfg.maxReject) :
    ∃ t, execAll (List.replicate k stalledTick) s = .next t ∧ t.txqReject.toNat = s.txqReject.toNat + k ∧
      t.txBatch = s.txBatch ∧ t.hist = s.hist ∧ t.txqCount = s.txqCount ∧ t.txqZlp = s.txqZlp ∧ t.cfg = s.cfg := by
  induction k generalizing s with
  | zero => exact ⟨s, rfl, rfl, rfl, rfl, rfl, rfl, rfl⟩
  | succ k ih =>
    have hone : s.txqReject.toNat + 1 ≤ s.cfg.maxReject := by omega
    have hreject := countedReject_toNat hmax hone
    rw [List.replicate_succ, execAll_cons_of_next (exec_stalledTick_of_counted hpend hone)]
    obtain ⟨t, hrun, htreject, hrest⟩ := ih
      (s.setTxq s.txqCount (BitVec.ofNat 3 (s.txqReject.toNat + 1)) s.txqZlp).countDraw hmax hpend
      (by simp only [State.countDraw_txqReject, State.setTxq_txqReject, hreject]; simp; omega)
    refine ⟨t, hrun, ?_, hrest⟩
    simp only [htreject, State.countDraw_txqReject, State.setTxq_txqReject, hreject]
    omega

/-- Settles O37: MAX_REJECT ticks count, and the next one finds the count at MAX_REJECT. -/
theorem stallDiscardsAtMaxRejectPlusOne : Obligations.StallDiscardsAtMaxRejectPlusOne := by
  intro s hmax hzero hpend
  have hpend' := s.txPending_eq_true_iff.2 hpend
  have hstart : s.txqReject.toNat = 0 := by rw [hzero]; rfl
  refine ⟨fun k hk => ?_, ?_⟩
  · obtain ⟨t, hrun, hreject, hbatch, hhist, -⟩ := execAll_stalledTicks_count k s hmax hpend' (by omega)
    exact ⟨t, hrun, by omega, hbatch, hhist⟩
  · obtain ⟨t, hrun, hreject, -, hhist, hcount, hzlp, hcfg⟩ :=
      execAll_stalledTicks_count s.cfg.maxReject s hmax hpend' (by omega)
    have htpend : 0 < t.txqCount.toNat ∨ t.txqZlp = true := by rw [hcount, hzlp]; exact hpend
    obtain ⟨-, hdiscards, -⟩ :=
      rejectCountsThenDiscards t false 0#7 (stalledTick_wf _) (hcfg.symm ▸ hmax) htpend
    obtain ⟨u, hu, huhist, hucount, hureject, -⟩ := hdiscards (by rw [hcfg]; omega)
    refine ⟨u, ?_, hureject, hucount, by rw [huhist, hhist, hcount]⟩
    rw [List.replicate_succ', execAll_append_of_next hrun, execAll_singleton_of_next hu]

/-! ### Which meaning writes which register -/

/-- Settles O57: each part reads off the command's frame. -/
theorem writersOfTheRegisters : Obligations.WritersOfTheRegisters := by
  intro i s t h
  cases i with
  | put b => rw [exec_put_frame h]; simp
  | putt b => rw [exec_putt_frame h]; simp
  | get => rw [exec_get_frame h]; simp
  | pkt len => rw [exec_pkt_frame h]; simp
  | config => rw [exec_config_frame h]; simp
  | tick r a n => rw [exec_tick_frame h]; simp

end Sys2Proof.Machine

/-! PROOFS. One step of each agent (40_queue_ops.md R75 to R77, 10_state.md R38): the step that a turn takes, when it is
refused or stops, and which part of the state it may write. -/

namespace Sys2Proof.Machine

/-! ### The step of a turn -/

theorem step_of_main_turn {s : State} {rest : List Turn} (hturns : s.turns = .main :: rest) :
    step s = mainStep (s.setTurns rest) := by
  simp only [step, hturns, takeTurn]

theorem step_of_tick_turn {s : State} {rest : List Turn} {w : Word} {lane : List Byte}
    (hturns : s.turns = .tick w lane :: rest) : step s = tickStep w lane (s.setTurns rest) := by
  simp only [step, hturns, takeTurn]

theorem step_of_rst_turn {s : State} {rest : List Turn} {cmds : List Command} (hturns : s.turns = .rst cmds :: rest) :
    step s = .next ((s.setTurns rest).assertRst cmds) := by
  simp only [step, hturns, takeTurn]

/-- With a micro-step pending MAIN performs it (R75). -/
theorem step_of_pending {s : State} {rest : List Turn} (hturns : s.turns = .main :: rest) (hpend : s.mainPend ≠ []) :
    step s = .next (runMicroStep (s.setTurns rest)) := by
  rw [step_of_main_turn hturns, mainStep]
  exact if_neg hpend

/-- Settles O9: with nothing pending MAIN issues the command at `ip`, and a word that decodes is executed. -/
theorem mainStepRunsTheCommandAtIp : Obligations.MainStepRunsTheCommandAtIp := by
  intro s rest c i hturns hpend hcmd hdecode
  rw [step_of_main_turn hturns, mainStep_of_command_at_ip (s := s.setTurns rest) hpend hcmd, issueCommand]
  simp only [State.setTurns_cfg, hdecode]
  rfl

/-- Settles O10. -/
theorem tickPortStepRunsTheTick : Obligations.TickPortStepRunsTheTick := by
  intro s rest w lane i hturns hdecode
  rw [step_of_tick_turn hturns, tickStep]
  simp only [State.setTurns_cfg, hdecode]
  rfl

/-! ### Refusals and faults -/

theorem step_of_refused_command {s : State} {rest : List Turn} {c : Command} {why : Reject}
    (hturns : s.turns = .main :: rest) (hpend : s.mainPend = []) (hcmd : s.cmds[s.ip]? = some c)
    (hdecode : decode s.cfg.cRx .command c.word = .error why) : step s = .refused (.word why) :=
  (step_of_main_turn hturns).trans
    ((mainStep_of_command_at_ip (s := s.setTurns rest) hpend hcmd).trans (issueCommand_of_decode_error hdecode))

theorem step_of_refused_tick {s : State} {rest : List Turn} {w : Word} {lane : List Byte} {why : Reject}
    (hturns : s.turns = .tick w lane :: rest) (hdecode : decode s.cfg.cRx .tick w = .error why) :
    step s = .refused (.word why) :=
  (step_of_tick_turn hturns).trans (tickStep_of_decode_error (s := s.setTurns rest) hdecode)

/-- A legal command is never refused (R71). -/
theorem exec_ne_refused {i : Instr} {s : State} {r : Refusal} (hwf : i.wf s.cfg.cRx = true) :
    exec i s ≠ .refused r := by
  cases i with
  | put b => rw [putLoadsOneMicroStep]; nofun
  | putt b => rw [exec_putt_eq_next]; nofun
  | get =>
    intro h
    obtain ⟨-, -, h⟩ | ⟨-, -, h⟩ | ⟨-, h⟩ := execGet_cases h <;> contradiction
  | pkt len => nofun
  | config => nofun
  | tick r a n =>
    intro h
    have hlegal := (tickReject_eq_none_iff s.cfg.cRx r a n).2 hwf
    simp only [exec, execTick, hlegal] at h
    split at h <;> contradiction

/-- What a step can answer: a next state; the refusal of the word it took; or what the meaning of a legal command
answers, around which only the turn and the lanes are set. -/
theorem step_outcome_cases (s : State) :
    (∃ t, step s = .next t) ∨
    (∃ rest c why, s.turns = .main :: rest ∧ s.mainPend = [] ∧ s.cmds[s.ip]? = some c ∧
      decode s.cfg.cRx .command c.word = .error why ∧ step s = .refused (.word why)) ∨
    (∃ rest w lane why, s.turns = .tick w lane :: rest ∧ decode s.cfg.cRx .tick w = .error why ∧
      step s = .refused (.word why)) ∨
    (∃ i u, u = { s with turns := u.turns, outLane := u.outLane, rxLane := u.rxLane } ∧
      i.wf s.cfg.cRx = true ∧ step s = exec i u) := by
  rcases hturns : s.turns with _ | ⟨_ | ⟨w, lane⟩ | cmds, rest⟩
  · exact .inl ⟨s, by simp only [step, hturns]⟩
  · by_cases hpend : s.mainPend = []
    · cases hcmd : s.cmds[s.ip]? with
      | none => exact .inl ⟨s.setTurns rest, by simp [step_of_main_turn hturns, mainStep, hpend, hcmd]⟩
      | some c =>
        cases hdecode : decode s.cfg.cRx .command c.word with
        | error why =>
          exact .inr (.inl ⟨rest, c, why, rfl, hpend, rfl, hdecode,
            step_of_refused_command hturns hpend hcmd hdecode⟩)
        | ok i =>
          exact .inr (.inr (.inr ⟨i, _, rfl, decode_wf hdecode,
            mainStepRunsTheCommandAtIp s rest c i hturns hpend hcmd hdecode⟩))
    · exact .inl ⟨_, step_of_pending hturns hpend⟩
  · cases hdecode : decode s.cfg.cRx .tick w with
    | error why => exact .inr (.inr (.inl ⟨rest, w, lane, why, rfl, hdecode, step_of_refused_tick hturns hdecode⟩))
    | ok i =>
      exact .inr (.inr (.inr ⟨i, _, rfl, decode_wf hdecode,
        tickPortStepRunsTheTick s rest w lane i hturns hdecode⟩))
  · exact .inl ⟨_, step_of_rst_turn hturns⟩

/-- Settles O15: a command that decodes is legal, and a legal command is not refused. -/
theorem onlyRefusedWordsRefuseAStep : Obligations.OnlyRefusedWordsRefuseAStep := by
  intro s r h
  obtain ⟨t, hstep⟩ | ⟨rest, c, why, hturns, hpend, hcmd, hdecode, hstep⟩ |
    ⟨rest, w, lane, why, hturns, hdecode, hstep⟩ | ⟨i, u, hu, hwf, hstep⟩ := step_outcome_cases s
  all_goals rw [hstep] at h
  · contradiction
  · exact .inl ⟨rest, c, why, hturns, hpend, hcmd, hdecode, (Host.Outcome.refused.inj h).symm⟩
  · exact .inr ⟨rest, w, lane, why, hturns, hdecode, (Host.Outcome.refused.inj h).symm⟩
  · have hwf' : i.wf u.cfg.cRx = true := by rw [hu]; exact hwf
    exact absurd h (exec_ne_refused hwf')

/-- A tick within the capacity does not stop (20_memory.md R43). -/
theorem exec_tick_ne_fault {r a : Bool} {n : BitVec 7} {s : State} {f : Fault} (hcap : s.txqCount.toNat ≤ s.cfg.cTx) :
    exec (.tick r a n) s ≠ .fault f := by
  intro h
  obtain ⟨t, ht⟩ := txSide_ok (r := r) hcap
  simp only [exec, execTick, ht] at h
  split at h <;> contradiction

/-- The tick port only takes ticks. -/
theorem decode_tick_port {cRx : Nat} {w : Word} {i : Instr} (h : decode cRx .tick w = .ok i) :
    ∃ r a n, i = .tick r a n := by
  have hport := decode_port h
  cases i with
  | tick r a n => exact ⟨r, a, n, rfl⟩
  | _ => contradiction

/-- Settles O34: a legal tick neither stops nor is refused, so it answers a next state. -/
theorem everyLegalTickCompletes : Obligations.EveryLegalTickCompletes := by
  intro s rest w lane hcap hturns
  cases hdecode : decode s.cfg.cRx .tick w with
  | error why =>
    rw [step_of_refused_tick hturns hdecode]
    simp
  | ok i =>
    obtain ⟨r, a, n, rfl⟩ := decode_tick_port hdecode
    have hstep := tickPortStepRunsTheTick s rest w lane _ hturns hdecode
    obtain ⟨t, ht⟩ := txSide_ok (r := r) (s := { s with turns := rest, rxLane := lane }) hcap
    have hnext := execTick_of_ok (s := { s with turns := rest, rxLane := lane })
      (decode_wf hdecode) ht
    exact ⟨⟨fun _ => ⟨_, hstep.trans hnext⟩, fun _ => ⟨_, rfl⟩⟩, fun f hf =>
      exec_tick_ne_fault (by exact hcap) (hstep.symm.trans hf)⟩

/-! ### The micro-step -/

/-- Whether it puts or holds, a micro-step writes the TX buffer and its count, `main.pend` and `ip`. -/
theorem runMicroStep_frame (s : State) :
    runMicroStep s = { s with txbuf := (runMicroStep s).txbuf, txqCount := (runMicroStep s).txqCount,
                              mainPend := (runMicroStep s).mainPend, ip := (runMicroStep s).ip } := by
  rcases hpend : s.mainPend with _ | ⟨⟨b⟩, pend⟩
  · rw [runMicroStep_nil hpend]
  · rcases Nat.lt_or_ge s.txqCount.toNat s.cfg.cTx with hroom | hfull
    · rw [runMicroStep_put hpend hroom, State.finishIfDone_frame]
      rfl
    · rw [runMicroStep_hold hpend hfull]

/-- A count below a capacity of at most 127 has room to grow (R5). -/
theorem txqCount_add_one_toNat {s : State} (hcap : s.cfg.cTx ≤ 127) (hroom : s.txqCount.toNat < s.cfg.cTx) :
    (s.txqCount + 1#7).toNat = s.txqCount.toNat + 1 := by
  rw [BitVec.toNat_add, BitVec.toNat_ofNat]
  omega

/-- Settles O11: `putByte` on both sides of full. -/
theorem microStepAppendsOrHolds : Obligations.MicroStepAppendsOrHolds := by
  intro s turns b pend hturns hpend hcap
  have hstep := step_of_pending hturns (hpend ▸ List.cons_ne_nil _ _)
  refine ⟨fun hroom => ?_, fun hfull => ?_⟩
  · rw [runMicroStep_put (s := s.setTurns turns) hpend hroom] at hstep
    refine ⟨_, hstep, ?_, ?_, ?_, fun i hi => ?_, fun x i hx => ?_, ?_⟩
    · rw [State.finishIfDone_frame]; rfl
    · simpa using txqCount_add_one_toNat hcap hroom
    · simp [State.byteAt_store_self]
    · simp only [State.finishIfDone_byteAt, State.setPend_byteAt, State.setTxq_byteAt, State.byteAt_store_self,
        State.setTurns_txqCount, State.setTurns_byteAt, List.length_singleton]
      exact if_neg (by omega)
    · simp [hx]
    · simp
  · rw [runMicroStep_hold (s := s.setTurns turns) hpend hfull] at hstep
    exact hstep

/-! ### What a command of MAIN may write -/

/-- The meaning of a command of the command port leaves the TX queue, the RX batch, the parameters and the ports as they
are. -/
theorem exec_command_frame {i : Instr} {s t : State} (hport : i.port = .command) (h : exec i s = .next t) :
    t = { s with res := t.res, resWritten := t.resWritten, rxqCursor := t.rxqCursor, accRxSize := t.accRxSize,
                 accRxCount := t.accRxCount, pktbuf := t.pktbuf, mainPend := t.mainPend, ip := t.ip, hist := t.hist,
                 drawCount := t.drawCount } := by
  cases i with
  | put b => rw [exec_put_frame h]
  | putt b => rw [exec_putt_frame h]
  | get => rw [exec_get_frame h]
  | pkt len => rw [exec_pkt_frame h]
  | config => rw [exec_config_frame h]
  | tick r a n => contradiction

/-- A command leaves the cursor, or reads an unread byte and moves it past that. -/
theorem exec_command_cursor {i : Instr} {s t : State} (hport : i.port = .command) (h : exec i s = .next t) :
    t.rxqCursor = s.rxqCursor ∨
      s.rxqCursor.toNat < s.rxqCount.toNat ∧ t.rxqCursor = s.rxqCursor + 1#7 := by
  cases i with
  | put b => rw [exec_put_frame h]; exact .inl rfl
  | putt b => rw [exec_putt_frame h]; exact .inl rfl
  | get =>
    obtain ⟨hunread, -, ht⟩ | ⟨-, -, ht⟩ | ⟨-, ht⟩ := execGet_cases h
    · rw [Host.Outcome.next.inj ht]; exact .inr ⟨hunread, by simp⟩
    · contradiction
    · rw [Host.Outcome.next.inj ht]; exact .inl (by simp)
  | pkt len => rw [exec_pkt_frame h]; exact .inl rfl
  | config => rw [exec_config_frame h]; exact .inl rfl
  | tick r a n => contradiction

/-- The events by which bytes leave the TX queue: a flush and a discard (R95, R96). -/
def Event.emptiesTxq : Event → Bool
  | .txPacket _ => true
  | .txDiscard _ => true
  | _ => false

/-- A packet records at most one event, and none by which bytes leave the TX queue. -/
theorem classify_hist (len : BitVec 12) (s : State) :
    (classify len s).hist = s.hist ∨ ∃ e, Event.emptiesTxq e = false ∧ (classify len s).hist = s.hist ++ [e] := by
  obtain ⟨-, h⟩ | ⟨-, h⟩ | ⟨-, -, h⟩ | ⟨-, -, h⟩ := classify_cases len s
  · rw [h]; exact .inr ⟨_, rfl, rfl⟩
  · rw [h]; exact .inl rfl
  · rw [h]; exact .inr ⟨_, rfl, rfl⟩
  · rw [h]; exact .inr ⟨_, rfl, rfl⟩

/-- A command records at most one event, and none by which bytes leave the TX queue. -/
theorem exec_command_hist {i : Instr} {s t : State} (hport : i.port = .command) (h : exec i s = .next t) :
    t.hist = s.hist ∨ ∃ e, Event.emptiesTxq e = false ∧ t.hist = s.hist ++ [e] := by
  cases i with
  | put b => rw [exec_put_frame h]; exact .inl rfl
  | putt b => rw [exec_putt_frame h]; exact .inl rfl
  | get => rw [exec_get_frame h]; exact .inl rfl
  | pkt len =>
    rw [← Host.Outcome.next.inj h, State.finishIfDone_hist]
    exact classify_hist len (copyPayload len s)
  | config => rw [exec_config_frame h]; exact .inr ⟨_, rfl, rfl⟩
  | tick r a n => contradiction

/-- The end of an action moves `ip` exactly when nothing is left pending (R75). -/
theorem State.finishIfDone_ip_eq (s : State) :
    s.finishIfDone.ip = if s.finishIfDone.mainPend = [] then s.ip + 1 else s.ip := by
  rw [State.finishIfDone_ip, State.finishIfDone_mainPend]

/-- A command advances `ip` exactly when it leaves nothing pending (R75). -/
theorem exec_command_ip {i : Instr} {s t : State} (hport : i.port = .command) (h : exec i s = .next t) :
    t.ip = if t.mainPend = [] then s.ip + 1 else s.ip := by
  cases i with
  | put b => rw [exec_put_frame h]; simp
  | putt b => rw [exec_putt_frame h]; simp [stringPath_ne_nil]
  | get =>
    obtain ⟨-, -, ht⟩ | ⟨-, -, ht⟩ | ⟨-, ht⟩ := execGet_cases h
    · rw [Host.Outcome.next.inj ht]; exact State.finishIfDone_ip_eq _
    · contradiction
    · rw [Host.Outcome.next.inj ht]; exact State.finishIfDone_ip_eq _
  | pkt len =>
    have hip : (classify len (copyPayload len s)).ip = s.ip := by rw [classify_frame]; rfl
    rw [← Host.Outcome.next.inj h, State.finishIfDone_ip_eq, hip]
  | config => rw [← Host.Outcome.next.inj h]; exact State.finishIfDone_ip_eq _
  | tick r a n => contradiction

/-- A micro-step advances `ip` exactly when it leaves nothing pending, and it leaves something on a hold (R75, R77). -/
theorem runMicroStep_ip {s : State} (hpend : s.mainPend ≠ []) :
    (runMicroStep s).ip = (if (runMicroStep s).mainPend = [] then s.ip + 1 else s.ip) ∧
      ((runMicroStep s).mainPend = [] → s.txqCount.toNat < s.cfg.cTx) := by
  rcases hcons : s.mainPend with _ | ⟨⟨b⟩, pend⟩
  · contradiction
  · rcases Nat.lt_or_ge s.txqCount.toNat s.cfg.cTx with hroom | hfull
    · rw [runMicroStep_put hcons hroom]
      exact ⟨State.finishIfDone_ip_eq _, fun _ => hroom⟩
    · rw [runMicroStep_hold hcons hfull]
      exact ⟨(if_neg hpend).symm, fun hdone => absurd hdone hpend⟩

/-! ### What a step may write -/

/-- Settles O60. -/
theorem parametersNeverChange : Obligations.ParametersNeverChange := by
  intro s t h
  obtain ⟨-, rfl⟩ | ⟨rest, -, -, -, rfl⟩ | ⟨rest, c, i, -, -, -, hdecode, hexec⟩ | ⟨rest, -, -, rfl⟩ |
    ⟨rest, w, lane, r, a, n, -, -, hexec⟩ | ⟨rest, c, -, rfl⟩ := step_next_cases h
  · rfl
  · rfl
  · rw [exec_command_frame (decode_port hdecode) hexec]; rfl
  · rw [runMicroStep_frame]; rfl
  · rw [exec_tick_frame hexec]; rfl
  · rfl

end Sys2Proof.Machine

/-! PROOFS. Rules for every step of the machine: who writes what (20_memory.md R56, 10_state.md R21), the history
(10_state.md R35), and the order of the bytes in the TX queue (20_memory.md R53). -/

namespace Sys2Proof.Machine

/-! ### The steps of one turn -/

/-- What a MAIN step that answers a next state did. -/
theorem main_step_cases {s t : State} {rest : List Turn} (hturns : s.turns = .main :: rest) (h : step s = .next t) :
    (s.mainPend = [] ∧ s.cmds[s.ip]? = none ∧ t = s.setTurns rest) ∨
    (∃ c i, s.mainPend = [] ∧ s.cmds[s.ip]? = some c ∧ i.port = .command ∧
      exec i ((s.setTurns rest).setOutLane c.lane) = .next t) ∨
    (s.mainPend ≠ [] ∧ t = runMicroStep (s.setTurns rest)) := by
  obtain ⟨ht, -⟩ | ⟨rest', ht, hpend, hcmd, rfl⟩ | ⟨rest', c, i, ht, hpend, hcmd, hdecode, hexec⟩ |
    ⟨rest', ht, hpend, rfl⟩ | ⟨rest', w, lane, r, a, n, ht, -, -⟩ | ⟨rest', c, ht, -⟩ := step_next_cases h
  all_goals rw [hturns] at ht; cases ht
  · exact .inl ⟨hpend, hcmd, rfl⟩
  · exact .inr (.inl ⟨c, i, hpend, hcmd, decode_port hdecode, hexec⟩)
  · exact .inr (.inr ⟨hpend, rfl⟩)

/-- A TICK step that answers a next state took a tick. -/
theorem tick_step_cases {s t : State} {w : Word} {lane : List Byte} {rest : List Turn}
    (hturns : s.turns = .tick w lane :: rest) (h : step s = .next t) :
    ∃ r a n, exec (.tick r a n) ((s.setTurns rest).setRxLane lane) = .next t := by
  obtain ⟨ht, -⟩ | ⟨rest', ht, -⟩ | ⟨rest', c, i, ht, -⟩ | ⟨rest', ht, -⟩ |
    ⟨rest', w', lane', r, a, n, ht, -, hexec⟩ | ⟨rest', c, ht, -⟩ := step_next_cases h
  all_goals rw [hturns] at ht; cases ht
  exact ⟨r, a, n, hexec⟩

/-- Every step but a reset is idle, a MAIN step or a TICK step. -/
theorem step_agent_cases {s t : State} (hrst : ∀ c rest, s.turns ≠ .rst c :: rest) (h : step s = .next t) :
    t = s ∧ s.turns = [] ∨ (∃ rest, s.turns = .main :: rest) ∨ ∃ w lane rest, s.turns = .tick w lane :: rest := by
  rcases hturns : s.turns with _ | ⟨_ | ⟨w, lane⟩ | cmds, rest⟩
  · refine .inl ⟨?_, rfl⟩
    simp only [step, hturns] at h
    exact (Host.Outcome.next.inj h).symm
  · exact .inr (.inl ⟨rest, rfl⟩)
  · exact .inr (.inr ⟨w, lane, rest, rfl⟩)
  · exact absurd hturns (hrst cmds rest)

/-! ### The TX queue over one step -/

/-- A tick leaves the TX batch alone, hands it over as one packet, or drops it; no other event is recorded. -/
theorem exec_tick_txq {r a : Bool} {n : BitVec 7} {s u : State} (h : exec (.tick r a n) s = .next u) :
    (u.txqCount = s.txqCount ∧ u.hist = s.hist) ∨
      (u.txqCount = 0#7 ∧ (u.hist = s.hist ++ [.txPacket s.txBatch] ∨
        u.hist = s.hist ++ [.txDiscard s.txqCount.toNat])) := by
  obtain ⟨-, t, ht, rfl⟩ := execTick_next h
  rw [State.countDraw_txqCount, rxSide_txqCount, State.countDraw_hist, rxSide_hist]
  obtain ⟨-, rfl⟩ | ⟨-, -, -, rfl⟩ | ⟨-, -, -, rfl⟩ | ⟨-, -, -, rfl⟩ := txSide_cases ht
  · exact .inl ⟨rfl, rfl⟩
  · exact .inr ⟨rfl, .inl rfl⟩
  · exact .inl ⟨rfl, rfl⟩
  · exact .inr ⟨rfl, .inr rfl⟩

/-- What a step other than a reset does to the TX queue and its events: it leaves the bytes alone, puts one, or empties
the queue by a flush or a discard. -/
theorem step_txq_cases {s t : State} (hrst : ∀ c rest, s.turns ≠ .rst c :: rest) (h : step s = .next t) :
    (t.txqCount = s.txqCount ∧ t.txBatch = s.txBatch ∧
      (t.hist = s.hist ∨ ∃ e, Event.emptiesTxq e = false ∧ t.hist = s.hist ++ [e])) ∨
    (∃ b pend, s.mainPend = .putByte b :: pend ∧ s.txqCount.toNat < s.cfg.cTx ∧ t.hist = s.hist ∧
      t.txBatch = ((s.store .tx s.txqCount.toNat [b]).setTxq (s.txqCount + 1#7) s.txqReject s.txqZlp).txBatch) ∨
    (t.txqCount = 0#7 ∧
      (t.hist = s.hist ++ [.txPacket s.txBatch] ∨ t.hist = s.hist ++ [.txDiscard s.txqCount.toNat])) := by
  obtain ⟨rfl, -⟩ | ⟨rest, hturns⟩ | ⟨w, lane, rest, hturns⟩ := step_agent_cases hrst h
  · exact .inl ⟨rfl, rfl, .inl rfl⟩
  · obtain ⟨-, -, rfl⟩ | ⟨c, i, -, -, hport, hexec⟩ | ⟨hpend, rfl⟩ := main_step_cases hturns h
    · exact .inl ⟨rfl, rfl, .inl rfl⟩
    · have hframe := exec_command_frame hport hexec
      have hcount : t.txqCount = s.txqCount := by rw [hframe]; rfl
      have hbatch : t.txBatch = s.txBatch := by rw [hframe]; rfl
      have hhist := exec_command_hist hport hexec
      exact .inl ⟨hcount, hbatch, hhist⟩
    · rcases hcons : s.mainPend with _ | ⟨⟨b⟩, pend⟩
      · contradiction
      · rcases Nat.lt_or_ge s.txqCount.toNat s.cfg.cTx with hroom | hfull
        · rw [runMicroStep_put (s := s.setTurns rest) hcons hroom, State.finishIfDone_txBatch, State.setPend_txBatch]
          exact .inr (.inl ⟨b, pend, rfl, hroom, by simp, rfl⟩)
        · rw [runMicroStep_hold (s := s.setTurns rest) hcons hfull]
          exact .inl ⟨rfl, rfl, .inl rfl⟩
  · obtain ⟨r, a, n, hexec⟩ := tick_step_cases hturns h
    obtain ⟨hcount, hhist⟩ | ⟨hcount, hhist⟩ := exec_tick_txq hexec
    · have hframe := exec_tick_frame hexec
      have hbatch : t.txBatch = s.txBatch := by rw [hframe, hcount]; rfl
      exact .inl ⟨hcount, hbatch, .inl hhist⟩
    · exact .inr (.inr ⟨hcount, hhist⟩)

/-- Settles O12: from a full queue there is no put. -/
theorem holdIsLiftedOnlyByFlushOrDiscard : Obligations.HoldIsLiftedOnlyByFlushOrDiscard := by
  intro s t hfull hrst h
  obtain ⟨hcount, -, hhist | ⟨e, he, hhist⟩⟩ | ⟨b, pend, -, hroom, -⟩ | hempty := step_txq_cases hrst h
  · exact .inl ⟨hcount, by rw [hhist]⟩
  · refine .inl ⟨hcount, ?_⟩
    rw [hhist, List.countP_append, Nat.add_eq_left]
    cases e <;> simp_all [Event.emptiesTxq]
  · omega
  · exact .inr hempty

/-- Settles O55. -/
theorem historyOnlyGrows : Obligations.HistoryOnlyGrows := by
  intro s t hrst h
  obtain ⟨-, -, hhist | ⟨e, -, hhist⟩⟩ | ⟨b, pend, -, -, hhist, -⟩ | ⟨-, hhist | hhist⟩ := step_txq_cases hrst h
  · exact ⟨[], by simp [hhist]⟩
  · exact ⟨[e], by simp [hhist]⟩
  · exact ⟨[], by simp [hhist]⟩
  · exact ⟨_, hhist, by simp⟩
  · exact ⟨_, hhist, by simp⟩

/-! ### The bytes that were sent (R39, R53) -/

theorem txPackets_append (h g : List Event) : txPackets (h ++ g) = txPackets h ++ txPackets g := by
  induction h with
  | nil => rfl
  | cons e h ih => cases e <;> simp [txPackets, ih]

theorem sentBytes_of_hist_append {s t : State} {es : List Event} (h : t.hist = s.hist ++ es) :
    t.sentBytes = s.sentBytes ++ (txPackets es).flatten := by
  rw [State.sentBytes, h, txPackets_append, List.flatten_append]
  rfl

theorem txPackets_of_not_emptiesTxq {e : Event} (h : Event.emptiesTxq e = false) : txPackets [e] = [] := by
  cases e <;> simp_all [Event.emptiesTxq, txPackets]

theorem State.txBatch_of_count_zero {s : State} (h : s.txqCount = 0#7) : s.txBatch = [] := by
  simp [State.txBatch, h]

/-- Settles O59: a put appends to the batch, a flush moves the whole batch to the bytes sent, a discard drops it. -/
theorem txBytesLeaveInPutOrder : Obligations.TxBytesLeaveInPutOrder := by
  intro s t hinv hrst h
  obtain ⟨-, hbatch, hhist | ⟨e, he, hhist⟩⟩ | ⟨b, pend, hpend, hroom, hhist, hbatch⟩ | ⟨hcount, hhist | hhist⟩ :=
    step_txq_cases hrst h
  · left
    rw [State.txStream, hbatch, State.sentBytes, hhist]
    rfl
  · left
    rw [State.txStream, hbatch, sentBytes_of_hist_append hhist, txPackets_of_not_emptiesTxq he, List.flatten_nil,
      List.append_nil]
    rfl
  · right; left
    obtain ⟨⟨-, hcap⟩, -⟩ := hinv.1
    have hsent : t.sentBytes = s.sentBytes := by rw [State.sentBytes, hhist]; rfl
    refine ⟨b, pend, hpend, hsent, ?_⟩
    rw [State.txStream, hsent, hbatch, State.txBatch_put s b _ _ (by omega), ← List.append_assoc]
    rfl
  · left
    rw [State.txStream, sentBytes_of_hist_append hhist, State.txBatch_of_count_zero hcount]
    simp [txPackets, State.txStream]
  · right; right
    refine ⟨hhist, ?_, State.txBatch_of_count_zero hcount⟩
    rw [sentBytes_of_hist_append hhist]
    simp [txPackets]

/-! ### The writers of the shared state (R56) and of `ip` (R21) -/

/-- What a MAIN step may write of the queues. -/
theorem main_step_writes {s t : State} {rest : List Turn} (hcap : s.cfg.cTx ≤ 127) (hturns : s.turns = .main :: rest)
    (h : step s = .next t) :
    t.txqReject = s.txqReject ∧ t.txqZlp = s.txqZlp ∧ t.rxqCount = s.rxqCount ∧ t.rxbuf = s.rxbuf ∧
      (t.txqCount = s.txqCount ∧ t.txbuf = s.txbuf ∨ t.txqCount.toNat = s.txqCount.toNat + 1) ∧
      (t.rxqCursor = s.rxqCursor ∨
        s.rxqCursor.toNat < s.rxqCount.toNat ∧ t.rxqCursor.toNat = s.rxqCursor.toNat + 1) := by
  obtain ⟨-, -, rfl⟩ | ⟨c, i, -, -, hport, hexec⟩ | ⟨hpend, rfl⟩ := main_step_cases hturns h
  · simp
  · have hcursor : t.rxqCursor = s.rxqCursor ∨
        s.rxqCursor.toNat < s.rxqCount.toNat ∧ t.rxqCursor.toNat = s.rxqCursor.toNat + 1 := by
      obtain hsame | ⟨hunread, hmoved⟩ := exec_command_cursor hport hexec
      · exact .inl hsame
      · exact .inr ⟨hunread, hmoved ▸ cursor_add_one_toNat hunread⟩
    rw [exec_command_frame hport hexec] at hcursor ⊢
    exact ⟨rfl, rfl, rfl, rfl, .inl ⟨rfl, rfl⟩, hcursor⟩
  · rcases hcons : s.mainPend with _ | ⟨⟨b⟩, pend⟩
    · contradiction
    · rcases Nat.lt_or_ge s.txqCount.toNat s.cfg.cTx with hroom | hfull
      · rw [runMicroStep_put (s := s.setTurns rest) hcons hroom]
        have hcount := txqCount_add_one_toNat hcap hroom
        simpa using hcount
      · rw [runMicroStep_hold (s := s.setTurns rest) hcons hfull]
        simp

/-- What a tick may write of the queues. -/
theorem exec_tick_writes {r a : Bool} {n : BitVec 7} {s u : State} (h : exec (.tick r a n) s = .next u) :
    u.txbuf = s.txbuf ∧ (u.txqCount = s.txqCount ∨ u.txqCount = 0#7) ∧
      (u.rxqCursor = s.rxqCursor ∧ u.rxqCount = s.rxqCount ∧ u.rxbuf = s.rxbuf ∨
        s.rxqCursor = s.rxqCount ∧ u.rxqCursor = 0#7) := by
  refine ⟨by rw [exec_tick_frame h], (exec_tick_txq h).imp And.left And.left, ?_⟩
  obtain ⟨-, t, ht, rfl⟩ := execTick_next h
  have hframe := txSide_frame ht
  by_cases hskip : t.rxqCursor ≠ t.rxqCount ∨ a = false
  · rw [rxSide_of_undrained hskip, hframe]
    exact .inl ⟨rfl, rfl, rfl⟩
  · simp only [not_or, not_not, Bool.not_eq_false] at hskip
    obtain ⟨hdrained, rfl⟩ := hskip
    rw [rxSide_of_drained hdrained]
    rw [hframe] at hdrained
    exact .inr ⟨hdrained, rfl⟩

/-- Settles O56. -/
theorem writersOfTheSharedState : Obligations.WritersOfTheSharedState := by
  refine fun s t rest hcap h => ⟨fun hturns => main_step_writes hcap hturns h, fun w lane hturns => ?_⟩
  obtain ⟨r, a, n, hexec⟩ := tick_step_cases hturns h
  have hwrites := exec_tick_writes hexec
  exact hwrites

/-- A MAIN step that had something to perform advances `ip` exactly when it leaves nothing pending. -/
theorem main_step_ip {s t : State} {rest : List Turn} (hturns : s.turns = .main :: rest) (h : step s = .next t)
    (hwork : s.mainPend ≠ [] ∨ ∃ c, s.cmds[s.ip]? = some c) :
    t.ip = (if t.mainPend = [] then s.ip + 1 else s.ip) ∧
      (s.mainPend ≠ [] → t.mainPend = [] → s.txqCount.toNat < s.cfg.cTx) := by
  obtain ⟨hnone, hcmd, -⟩ | ⟨c, i, hnone, -, hport, hexec⟩ | ⟨hpend, rfl⟩ := main_step_cases hturns h
  · simp [hnone, hcmd] at hwork
  · have hip := exec_command_ip hport hexec
    exact ⟨hip, fun hpend => absurd hnone hpend⟩
  · obtain ⟨hip, hroom⟩ := runMicroStep_ip (s := s.setTurns rest) hpend
    exact ⟨hip, fun _ => hroom⟩

/-- Settles O58: a MAIN step with nothing to perform, and a tick, leave `ip` alone. -/
theorem ipAdvancesOnlyWhenACommandCompletes : Obligations.IpAdvancesOnlyWhenACommandCompletes := by
  intro s t hrst h
  refine ⟨?_, fun ⟨rest, hturns⟩ hwork hdone => by rw [(main_step_ip hturns h hwork).1, if_pos hdone]⟩
  obtain ⟨rfl, -⟩ | ⟨rest, hturns⟩ | ⟨w, lane, rest, hturns⟩ := step_agent_cases hrst h
  · exact .inl rfl
  · by_cases hwork : s.mainPend ≠ [] ∨ ∃ c, s.cmds[s.ip]? = some c
    · obtain ⟨hip, hroom⟩ := main_step_ip hturns h hwork
      by_cases hdone : t.mainPend = []
      · exact .inr ⟨by rw [hip, if_pos hdone], hdone, ⟨rest, hturns⟩, fun hpend => hroom hpend hdone⟩
      · exact .inl (by rw [hip, if_neg hdone])
    · obtain ⟨-, -, rfl⟩ | ⟨c, i, -, hcmd, -⟩ | ⟨hpend, -⟩ := main_step_cases hturns h
      · exact .inl rfl
      · exact absurd (.inr ⟨c, hcmd⟩) hwork
      · exact absurd (.inl hpend) hwork
  · obtain ⟨r, a, n, hexec⟩ := tick_step_cases hturns h
    rw [exec_tick_frame hexec]
    exact .inl rfl

/-- Settles O49. -/
theorem eventCodesAndErrors : Obligations.EventCodesAndErrors := by
  refine fun k n p => ⟨rfl, rfl, rfl, rfl, rfl, rfl, fun e => ?_⟩
  cases e <;> simp [eventIsError, eventCode]

end Sys2Proof.Machine

/-! PROOFS. Runs of steps: holds and their end (70_reset_and_hazards.md R147), and bytes on their way through the TX
queue (40_queue_ops.md R76 to R81, 41_tick.md R103, 42_accountant.md R110). -/

namespace Sys2Proof.Machine

/-! ### Runs -/

theorem run_succ_of_step {s t : State} (k : Nat) (h : step s = .next t) :
    Sys2Proof.core.run (k + 1) s = Sys2Proof.core.run k t := by
  have hstep : Sys2Proof.core.step s = .next t := h
  simp only [Host.Core.run, hstep]

theorem run_one_of_step {s t : State} (h : step s = .next t) : Sys2Proof.core.run 1 s = .next t :=
  run_succ_of_step 0 h

theorem run_add_of_next {s t : State} {j : Nat} (k : Nat) (h : Sys2Proof.core.run j s = .next t) :
    Sys2Proof.core.run (j + k) s = Sys2Proof.core.run k t := by
  induction j generalizing s with
  | zero => rw [Nat.zero_add, Host.Outcome.next.inj h]
  | succ j ih =>
    rw [Nat.succ_add]
    simp only [Host.Core.run] at h ⊢
    split at h
    · exact ih h
    · contradiction
    · contradiction

/-! ### Holds -/

/-- On a full queue MAIN holds: only the turn is spent (R77). -/
theorem step_of_hold {s : State} {rest : List Turn} (hturns : s.turns = .main :: rest) (hpend : s.mainPend ≠ [])
    (hfull : s.cfg.cTx ≤ s.txqCount.toNat) : step s = .next (s.setTurns rest) := by
  rw [step_of_pending hturns hpend]
  rcases hcons : s.mainPend with _ | ⟨⟨b⟩, pend⟩
  · contradiction
  · rw [runMicroStep_hold (s := s.setTurns rest) hcons hfull]

/-- Settles O13, by induction on the number of tries. -/
theorem holdNeverEndsWithoutTicks : Obligations.HoldNeverEndsWithoutTicks := by
  intro n
  induction n with
  | zero =>
    intro s m pend rest _ _ hturns
    obtain rfl : s.turns = rest := hturns
    rfl
  | succ n ih =>
    intro s m pend rest hpend hfull hturns
    have hhold := step_of_hold hturns (hpend ▸ List.cons_ne_nil _ _) hfull
    exact (run_succ_of_step n hhold).trans
      (ih (s.setTurns (List.replicate n .main ++ rest)) m pend rest hpend hfull rfl)

/-- A legal tick on a pending queue empties it, or counts one more reject and leaves the batch. -/
theorem legal_tick_empties_or_counts {s : State} {r a : Bool} {n : BitVec 7} {lane : List Byte} {rest : List Turn}
    (hwf : (Instr.tick r a n).wf s.cfg.cRx = true) (hcap : s.txqCount.toNat ≤ s.cfg.cTx) (hmax : s.cfg.maxReject ≤ 6)
    (hpend : 0 < s.txqCount.toNat) (hturns : s.turns = .tick (encode (.tick r a n)) lane :: rest) :
    ∃ t, step s = .next t ∧ t.cfg = s.cfg ∧ t.mainPend = s.mainPend ∧ t.turns = rest ∧
      (t.txqCount = 0#7 ∨ t.txqCount = s.txqCount ∧ s.txqReject.toNat + 1 ≤ s.cfg.maxReject ∧
        t.txqReject.toNat = s.txqReject.toNat + 1) := by
  have hstep := tickPortStepRunsTheTick s rest _ lane _ hturns (decodeOfEncodeIsTheCommand _ _ hwf)
  obtain ⟨u, hu⟩ := txSide_ok (r := r) (s := { s with turns := rest, rxLane := lane }) hcap
  have hexec := execTick_of_ok (s := { s with turns := rest, rxLane := lane }) hwf hu
  have hframe := exec_tick_frame hexec
  refine ⟨_, hstep.trans hexec, by rw [hframe], by rw [hframe], by rw [hframe], ?_⟩
  rw [State.countDraw_txqCount, rxSide_txqCount, State.countDraw_txqReject, rxSide_txqReject]
  obtain ⟨hidle, -⟩ | ⟨-, -, -, rfl⟩ | ⟨-, -, hcount, rfl⟩ | ⟨-, -, -, rfl⟩ := txSide_cases hu
  · simp [State.txPending, hpend] at hidle
  · exact .inl rfl
  · exact .inr ⟨rfl, hcount, countedReject_toNat hmax hcount⟩
  · exact .inl rfl

/-- Settles O14, by induction on the turns: a try of MAIN changes nothing, and each tick that does not empty the queue
uses up one of the rejects that MAX_REJECT still allows. -/
theorem holdEndsWithinMaxRejectPlusOneTicks : Obligations.HoldEndsWithinMaxRejectPlusOneTicks := by
  intro s turns rest hinv hfull hpend hturns hlegal hticks
  obtain ⟨⟨⟨hcapPos, -⟩, -, -, -, hmax, -⟩, -, ⟨-, hreject, -⟩, -⟩ := hinv
  have hbudget := hticks.trans (Nat.le_add_left _ s.txqReject.toNat)
  clear hticks
  induction turns generalizing s with
  | nil => simp at hbudget; omega
  | cons u turns ih =>
    simp only [List.mem_cons, forall_eq_or_imp] at hlegal
    obtain ⟨hu, hlegal⟩ := hlegal
    obtain rfl | ⟨r, a, n, lane, rfl, hwf⟩ := hu
    · have hhold := step_of_hold hturns hpend hfull.ge
      obtain ⟨k, t, hk, hrun, hdone⟩ := ih (s.setTurns (turns ++ rest)) hfull hpend rfl hlegal hcapPos hmax hreject
        (by simpa using hbudget)
      exact ⟨k + 1, t, by simpa using hk, (run_succ_of_step k hhold).trans hrun, hdone⟩
    · obtain ⟨v, hv, hcfg, hvpend, hvturns, hzero | ⟨hcount, hallowed, hvreject⟩⟩ :=
        legal_tick_empties_or_counts hwf hfull.le hmax (by omega) hturns
      · exact ⟨1, v, by simp, run_one_of_step hv, hzero, hvpend⟩
      · obtain ⟨k, t, hk, hrun, htzero, htpend⟩ := ih v (by rw [hcfg, hcount, hfull]) (by rw [hvpend]; exact hpend)
          hvturns (by rw [hcfg]; exact hlegal) (by rw [hcfg]; exact hcapPos) (by rw [hcfg]; exact hmax)
          (by rw [hcfg]; omega) (by rw [hcfg, hvreject]; simp at hbudget; omega)
        exact ⟨k + 1, t, by simpa using hk, (run_succ_of_step k hv).trans hrun, htzero, htpend.trans hvpend⟩

/-! ### Pending bytes -/

/-- One more byte at the end of the buffer is one more byte at the end of the batch. -/
theorem State.txBatch_append_of_byteAt {s t : State} {b : Byte} (hcount : t.txqCount.toNat = s.txqCount.toNat + 1)
    (hbyte : t.byteAt .tx s.txqCount.toNat = b)
    (hkept : ∀ i, i ≠ s.txqCount.toNat → t.byteAt .tx i = s.byteAt .tx i) : t.txBatch = s.txBatch ++ [b] := by
  rw [State.txBatch, hcount, List.range_succ, List.map_append, List.map_singleton, hbyte, State.txBatch]
  congr 1
  exact List.map_congr_left fun i hi => hkept i (List.mem_range.1 hi).ne

/-- Pending puts with room go in one a step, in order; `ip` moves at the last only if nothing is pending after it. -/
theorem run_pending_puts (bs : List Byte) (more : List MicroStep) (s : State) (rest : List Turn)
    (hcap : s.cfg.cTx ≤ 127) (hpend : s.mainPend = bs.map .putByte ++ more)
    (hroom : s.txqCount.toNat + bs.length ≤ s.cfg.cTx) (hturns : s.turns = List.replicate bs.length .main ++ rest) :
    ∃ t : State, Sys2Proof.core.run bs.length s = .next t ∧ t.txBatch = s.txBatch ++ bs ∧
      t.txqCount.toNat = s.txqCount.toNat + bs.length ∧
      t = { s with turns := rest, txbuf := t.txbuf, txqCount := t.txqCount, mainPend := more, ip := t.ip } ∧
      t.ip = if bs ≠ [] ∧ more = [] then s.ip + 1 else s.ip := by
  induction bs generalizing s with
  | nil =>
    obtain rfl : s.turns = rest := hturns
    obtain rfl : s.mainPend = more := hpend
    exact ⟨s, rfl, by simp, by simp, rfl, by simp⟩
  | cons b bs ih =>
    rw [List.length_cons] at hroom
    have hturns' : s.turns = .main :: (List.replicate bs.length .main ++ rest) := hturns
    have hpend' : s.mainPend = .putByte b :: (bs.map .putByte ++ more) := hpend
    obtain ⟨hput, -⟩ := microStepAppendsOrHolds s _ b _ hturns' hpend' hcap
    obtain ⟨u, hu, huframe, hucount, hubyte, hukept, -, huip⟩ := hput (by omega)
    have hucfg : u.cfg = s.cfg := by rw [huframe]
    have huturns : u.turns = List.replicate bs.length .main ++ rest := by rw [huframe]
    have hupend : u.mainPend = bs.map .putByte ++ more := by rw [huframe]
    obtain ⟨t, ht, htbatch, htcount, htframe, htip⟩ :=
      ih u (hucfg ▸ hcap) hupend (by rw [hucfg, hucount]; omega) huturns
    refine ⟨t, (run_succ_of_step _ hu).trans ht, ?_, ?_, ?_, ?_⟩
    · rw [htbatch, State.txBatch_append_of_byteAt hucount hubyte hukept, List.append_assoc, List.singleton_append]
    · rw [htcount, hucount, List.length_cons]; omega
    · rw [huframe] at htframe
      exact htframe
    · rw [htip, huip]
      rcases bs with _ | ⟨b', bs⟩ <;> simp

/-- Settles O23: after `k` steps the rest is still pending, after all of them nothing is. -/
theorem pendingTextEntersTheQueueInOrder : Obligations.PendingTextEntersTheQueueInOrder := by
  intro bs s rest hne hcap hpend hroom hturns
  refine ⟨fun k hk => ?_, ?_⟩
  · have hsplit : s.mainPend = (bs.take k).map .putByte ++ (bs.drop k).map .putByte := by
      rw [hpend, ← List.map_append, List.take_append_drop]
    have hlen : (bs.take k).length = k := List.length_take_of_le hk.le
    have hturns' : s.turns =
        List.replicate (bs.take k).length .main ++ (List.replicate (bs.length - k) .main ++ rest) := by
      rw [hturns, hlen, ← List.append_assoc, List.replicate_append_replicate, Nat.add_sub_cancel' hk.le]
    obtain ⟨t, hrun, hbatch, -, hframe, hip⟩ := run_pending_puts _ _ s _ hcap hsplit (by omega) hturns'
    rw [hlen] at hrun
    refine ⟨t, hrun, hbatch, by rw [hframe], ?_⟩
    rw [hip, if_neg]
    simp [Nat.not_le.2 hk]
  · obtain ⟨t, hrun, hbatch, -, hframe, hip⟩ :=
      run_pending_puts bs [] s rest hcap (by rw [hpend, List.append_nil]) hroom hturns
    exact ⟨t, hrun, hbatch, by rw [hip, if_pos ⟨hne, rfl⟩], hframe⟩

/-! ### PUT and PUTT, from their issue to their last put -/

theorem step_issues_put {s : State} {rest : List Turn} {b : Byte} {lane : List Byte}
    (hturns : s.turns = .main :: rest) (hpend : s.mainPend = []) (hcmd : s.cmds[s.ip]? = some ⟨encode (.put b), lane⟩) :
    step s = .next { s with turns := rest, outLane := lane, mainPend := [.putByte b] } :=
  (mainStepRunsTheCommandAtIp s rest _ _ hturns hpend hcmd (decodeOfEncodeIsTheCommand _ (.put b) rfl)).trans
    (putLoadsOneMicroStep _ b)

/-- 0x200A is the word of PUTT of LF (R65). -/
theorem step_issues_putt_lf {s : State} {rest : List Turn} {lane : List Byte}
    (hturns : s.turns = .main :: rest) (hpend : s.mainPend = []) (hcmd : s.cmds[s.ip]? = some ⟨0x200A#16, lane⟩) :
    step s = .next { s with turns := rest, outLane := lane, mainPend := [.putByte 0x0D#8, .putByte 0x0A#8] } :=
  (mainStepRunsTheCommandAtIp s rest _ _ hturns hpend hcmd (decodeOfEncodeIsTheCommand _ (.putt 0x0A#8) rfl)).trans
    (puttOfLineFeedLoadsCrThenLf _)

/-- Settles O17: the issue leaves the queue alone, and the micro-step appends or holds. -/
theorem putAppendsItsByteAndCompletes : Obligations.PutAppendsItsByteAndCompletes := by
  intro s rest b lane hcap hturns hpend hcmd
  have hissue := step_issues_put hturns hpend hcmd
  obtain ⟨hput, hhold⟩ := microStepAppendsOrHolds
    { s with turns := .main :: rest, outLane := lane, mainPend := [.putByte b] } rest b [] rfl rfl hcap
  refine ⟨fun hroom => ?_, fun hfull => ?_⟩
  · obtain ⟨t, ht, hframe, hcount, hbyte, hkept, -, hip⟩ := hput hroom
    refine ⟨t, (run_succ_of_step 1 hissue).trans (run_one_of_step ht), ?_, hcount,
      State.txBatch_append_of_byteAt hcount hbyte hkept, hbyte, hkept⟩
    have hip' : t.ip = s.ip + 1 := hip
    rw [hip', ← hpend] at hframe
    exact hframe
  · exact (run_succ_of_step 1 hissue).trans (run_one_of_step (hhold hfull))

/-- The command at `ip`, and those behind it, of a sequence that goes on with `c`. -/
theorem cmds_drop_cons {cmds tail : List Command} {ip : Nat} {c : Command} (h : cmds.drop ip = c :: tail) :
    cmds[ip]? = some c ∧ cmds.drop (ip + 1) = tail := by
  constructor
  · rw [← Nat.add_zero ip, ← List.getElem?_drop, h]; rfl
  · rw [← List.drop_drop, h]; rfl

/-- Settles O22, by induction on the bytes: each PUT completes and leaves room for the others. -/
theorem putsEnterTheQueueInOrder : Obligations.PutsEnterTheQueueInOrder := by
  intro bs
  induction bs with
  | nil =>
    intro s rest more _ hpend _ _ hturns
    exact ⟨s, rfl, by simp, hpend, by simp, by simp, hturns, rfl, rfl, rfl, rfl⟩
  | cons b bs ih =>
    intro s rest more hcap hpend hroom hcmds hturns
    rw [List.length_cons] at hroom
    have htwice : 2 * (b :: bs).length = 2 + 2 * bs.length := by rw [List.length_cons]; omega
    rw [htwice] at hturns ⊢
    rw [List.replicate_add] at hturns
    obtain ⟨hcmd, hbehind⟩ := cmds_drop_cons hcmds
    obtain ⟨hput, -⟩ := putAppendsItsByteAndCompletes s _ b [] hcap hturns hpend hcmd
    obtain ⟨u, hu, huframe, hucount, hubatch, -⟩ := hput (by omega)
    have hucfg : u.cfg = s.cfg := by rw [huframe]
    have huip : u.ip = s.ip + 1 := by rw [huframe]
    obtain ⟨t, ht, htbatch, htpend, htcount, htip, htturns, hthist, htzlp, htreject, htcfg⟩ :=
      ih u rest more (hucfg ▸ hcap) (by rw [huframe]; exact hpend) (by rw [hucfg, hucount]; omega)
        (by rw [huframe]; exact hbehind) (by rw [huframe]; rfl)
    refine ⟨t, (run_add_of_next _ hu).trans ht, ?_, htpend, ?_, ?_, htturns, ?_, ?_, ?_, htcfg.trans hucfg⟩
    · rw [htbatch, hubatch, List.append_assoc, List.singleton_append]
    · rw [htcount, hucount, List.length_cons]; omega
    · rw [htip, huip, List.length_cons]; omega
    · rw [hthist, huframe]
    · rw [htzlp, huframe]
    · rw [htreject, huframe]

/-- Settles O20: after the issue, CR and LF are two pending puts. -/
theorem puttOfLineFeedSendsCrLf : Obligations.PuttOfLineFeedSendsCrLf := by
  intro s rest lane hcap hturns hpend hcmd hroom
  have hissue := step_issues_putt_lf hturns hpend hcmd
  have hroom' : s.txqCount.toNat + 1 ≤ s.cfg.cTx := by omega
  obtain ⟨t, ht, -, -, htframe, htip⟩ := run_pending_puts [0x0D#8] [.putByte 0x0A#8]
    { s with turns := .main :: .main :: rest, outLane := lane, mainPend := [.putByte 0x0D#8, .putByte 0x0A#8] }
    (.main :: rest) hcap rfl hroom' rfl
  obtain ⟨u, hu, hubatch, -, huframe, huip⟩ := run_pending_puts [0x0D#8, 0x0A#8] []
    { s with turns := .main :: .main :: rest, outLane := lane, mainPend := [.putByte 0x0D#8, .putByte 0x0A#8] }
    rest hcap rfl hroom rfl
  refine ⟨⟨t, (run_succ_of_step 1 hissue).trans ht, by rw [htframe], htip⟩,
    u, (run_succ_of_step 2 hissue).trans hu, by rw [huframe], huip, hubatch, ?_⟩
  rw [huframe]
  exact ⟨rfl, rfl, rfl⟩

/-! ### Ticks with R = 1 and A = 0 -/

/-- 0x8800 is the word of the tick with R = 1, A = 0 and no batch (R69). -/
theorem readyTick_wf (cRx : Nat) : (Instr.tick true false 0#7).wf cRx = true := by simp [Instr.wf]

theorem decode_readyTick (cRx : Nat) : decode cRx .tick 0x8800#16 = .ok (.tick true false 0#7) :=
  decodeOfEncodeIsTheCommand cRx (.tick true false 0#7) (readyTick_wf cRx)

/-- With TX pending such a tick is one flush (R95). -/
theorem step_of_readyTick_pending {s : State} {rest : List Turn} {lane : List Byte}
    (hturns : s.turns = .tick 0x8800#16 lane :: rest) (hcap : s.txqCount.toNat ≤ s.cfg.cTx)
    (hpend : s.txPending = true) :
    ∃ t, step s = .next t ∧ t.hist = s.hist ++ [.txPacket s.txBatch] ∧ t.txqCount = 0#7 ∧ t.txqZlp = s.flushZlp ∧
      t.turns = rest ∧ t.cfg = s.cfg ∧ t.mainPend = s.mainPend ∧ t.ip = s.ip := by
  have hstep := tickPortStepRunsTheTick s rest _ lane _ hturns (decode_readyTick _)
  have hexec := execTick_of_ok (readyTick_wf _)
    (txSide_of_ready (s := { s with turns := rest, rxLane := lane }) hpend hcap)
  rw [rxSide_of_undrained (.inr rfl)] at hexec
  exact ⟨_, hstep.trans hexec, rfl, rfl, rfl, rfl, rfl, rfl, rfl⟩

/-- With TX not pending such a tick sends nothing (R94). -/
theorem step_of_readyTick_idle {s : State} {rest : List Turn} {lane : List Byte}
    (hturns : s.turns = .tick 0x8800#16 lane :: rest) (hidle : s.txPending = false) :
    ∃ t, step s = .next t ∧ t.hist = s.hist ∧ t.txqCount = s.txqCount ∧ t.txqZlp = s.txqZlp := by
  have hstep := tickPortStepRunsTheTick s rest _ lane _ hturns (decode_readyTick _)
  have hexec := execTick_of_ok (readyTick_wf _)
    (txSide_of_not_pending (s := { s with turns := rest, rxLane := lane }) hidle true)
  rw [rxSide_of_undrained (.inr rfl)] at hexec
  exact ⟨_, hstep.trans hexec, rfl, rfl, rfl⟩

/-- Settles O36: the first flush finds C_TX bytes, the second none but the flag, the third nothing. -/
theorem fullFlushIsFollowedByOneEmptyPacket : Obligations.FullFlushIsFollowedByOneEmptyPacket := by
  intro s bs l₁ l₂ l₃ rest more hwf hpend hempty hlen hcmds hturns
  obtain ⟨⟨hcapPos, hcap⟩, -⟩ := hwf
  have hzero : s.txqCount.toNat = 0 := by rw [hempty]; rfl
  obtain ⟨u, hu, hubatch, -, hucount, -, huturns, huhist, -, -, hucfg⟩ :=
    putsEnterTheQueueInOrder bs s _ more hcap hpend (by omega) hcmds hturns
  rw [State.txBatch_of_count_zero hempty, List.nil_append] at hubatch
  have hufull : u.txqCount.toNat = u.cfg.cTx := by rw [hucfg]; omega
  have hupend : u.txPending = true := u.txPending_eq_true_iff.2 (.inl (by rw [hufull, hucfg]; omega))
  obtain ⟨t₁, h₁, hhist₁, hcount₁, hzlp₁, hturns₁, hcfg₁, -⟩ := step_of_readyTick_pending huturns hufull.le hupend
  rw [hubatch, huhist] at hhist₁
  rw [u.flushZlp_eq_true_iff.2 hufull] at hzlp₁
  obtain ⟨t₂, h₂, hhist₂, hcount₂, hzlp₂, hturns₂, -⟩ := step_of_readyTick_pending hturns₁ (by simp [hcount₁])
    (t₁.txPending_eq_true_iff.2 (.inr hzlp₁))
  rw [State.txBatch_of_count_zero hcount₁, hhist₁, List.append_assoc] at hhist₂
  have hflag : t₁.flushZlp = false := by
    rw [State.flushZlp, hcount₁, hcfg₁, hucfg, beq_eq_false_iff_ne]
    exact (Nat.pos_of_ne_zero (by omega)).ne
  rw [hflag] at hzlp₂
  obtain ⟨t₃, h₃, hhist₃, hcount₃, hzlp₃⟩ := step_of_readyTick_idle hturns₂ (by simp [State.txPending, hcount₂, hzlp₂])
  exact ⟨t₁, t₂, t₃, (run_add_of_next 1 hu).trans (run_one_of_step h₁), hhist₁, hzlp₁, h₂, hhist₂, hzlp₂, h₃, hhist₃,
    hzlp₃.trans hzlp₂, hcount₃.trans hcount₂⟩

/-- A put that a full queue holds is flushed past by the tick, and starts the next packet (R77, R95). -/
theorem run_flush_then_held_put {s : State} {b : Byte} {lane : List Byte} {rest : List Turn}
    (hturns : s.turns = .tick 0x8800#16 lane :: .main :: rest) (hpend : s.mainPend = [.putByte b])
    (hfull : s.txqCount.toNat = s.cfg.cTx) (hcapPos : 1 ≤ s.cfg.cTx) (hcap : s.cfg.cTx ≤ 127) :
    ∃ t : State, Sys2Proof.core.run 2 s = .next t ∧ t.hist = s.hist ++ [.txPacket s.txBatch] ∧ t.txBatch = [b] ∧
      t.txqZlp = true ∧ t.mainPend = [] ∧ t.ip = s.ip + 1 := by
  obtain ⟨u, hu, huhist, hucount, huzlp, huturns, hucfg, hupend, huip⟩ :=
    step_of_readyTick_pending hturns hfull.le (s.txPending_eq_true_iff.2 (.inl (by omega)))
  obtain ⟨t, ht, htbatch, -, htframe, htip⟩ := run_pending_puts [b] [] u rest (hucfg ▸ hcap) (hupend.trans hpend)
    (by rw [hucount, hucfg]; exact hcapPos) huturns
  rw [State.txBatch_of_count_zero hucount] at htbatch
  refine ⟨t, (run_succ_of_step 1 hu).trans ht, by rw [htframe]; exact huhist, htbatch, ?_, by rw [htframe], ?_⟩
  · rw [htframe]
    exact huzlp.trans (s.flushZlp_eq_true_iff.2 hfull)
  · rw [htip, ← huip]
    exact if_pos ⟨List.cons_ne_nil _ _, rfl⟩

/-- Settles O21: the CR fills the queue, the LF holds, and the tick comes between them. -/
theorem tickMaySplitCrFromLf : Obligations.TickMaySplitCrFromLf := by
  intro s rest lane lane' hcap hturns hpend hcmd hroom
  have hissue := step_issues_putt_lf hturns hpend hcmd
  obtain ⟨t, ht, htbatch, htcount, htframe, htip⟩ := run_pending_puts [0x0D#8] [.putByte 0x0A#8]
    { s with turns := .main :: .main :: .tick 0x8800#16 lane' :: .main :: rest, outLane := lane,
             mainPend := [.putByte 0x0D#8, .putByte 0x0A#8] }
    (.main :: .tick 0x8800#16 lane' :: .main :: rest) hcap rfl hroom.le rfl
  have htbatch' : t.txBatch = s.txBatch ++ [0x0D#8] := htbatch
  have htip' : t.ip = s.ip := htip
  have htcfg : t.cfg = s.cfg := by rw [htframe]
  have hthist : t.hist = s.hist := by rw [htframe]
  have htpend : t.mainPend = [.putByte 0x0A#8] := by rw [htframe]
  have htturns : t.turns = .main :: .tick 0x8800#16 lane' :: .main :: rest := by rw [htframe]
  have htfull : t.txqCount.toNat = t.cfg.cTx := by rw [htcfg, ← hroom]; exact htcount
  have hhold := step_of_hold htturns (htpend ▸ List.cons_ne_nil _ _) htfull.ge
  obtain ⟨u, hu, huhist, hubatch, huzlp, hupend, huip⟩ := run_flush_then_held_put
    (s := t.setTurns (.tick 0x8800#16 lane' :: .main :: rest)) rfl htpend htfull
    (by rw [State.setTurns_cfg, htcfg]; omega) (by rw [State.setTurns_cfg, htcfg]; exact hcap)
  have hrun : Sys2Proof.core.run 5 s = .next u :=
    (run_succ_of_step 4 hissue).trans ((run_add_of_next 3 ht).trans ((run_succ_of_step 2 hhold).trans hu))
  rw [State.setTurns_hist, State.setTurns_txBatch, htbatch', hthist] at huhist
  exact ⟨u, hrun, huhist, hubatch, huzlp, hupend, huip.trans (congrArg (· + 1) htip')⟩

end Sys2Proof.Machine

/-! PROOFS. The payload plays no part (42_accountant.md R118, 10_state.md R31): every operation commutes with forgetting
the packet buffer and the OUT packet lane. -/

namespace Sys2Proof.Machine

/-! ### Forgetting the payload before and after an operation -/

theorem State.finishIfDone_withoutPayload (s : State) :
    s.finishIfDone.withoutPayload = s.withoutPayload.finishIfDone :=
  apply_ite State.withoutPayload _ _ _

/-- The class of a packet is decided without its bytes (R111). -/
theorem classify_withoutPayload (len : BitVec 12) (s : State) :
    (classify len s).withoutPayload = classify len s.withoutPayload := by
  simp only [classify, shortPacket, apply_ite State.withoutPayload]
  rfl

/-- The bytes of the packet are all that the copy takes from the payload. -/
theorem copyPayload_withoutPayload (len : BitVec 12) (s : State) :
    (copyPayload len s).withoutPayload = (copyPayload len s.withoutPayload).withoutPayload := rfl

theorem runMicroStep_withoutPayload (s : State) :
    (runMicroStep s).withoutPayload = runMicroStep s.withoutPayload := by
  rcases hcons : s.mainPend with _ | ⟨⟨b⟩, pend⟩
  · rw [runMicroStep_nil hcons, runMicroStep_nil (s := s.withoutPayload) hcons]
  · rcases Nat.lt_or_ge s.txqCount.toNat s.cfg.cTx with hroom | hfull
    · rw [runMicroStep_put hcons hroom, runMicroStep_put (s := s.withoutPayload) hcons hroom,
        State.finishIfDone_withoutPayload]
      rfl
    · rw [runMicroStep_hold hcons hfull, runMicroStep_hold (s := s.withoutPayload) hcons hfull]

theorem rejectTx_withoutPayload (s : State) : (rejectTx s).withoutPayload = rejectTx s.withoutPayload :=
  apply_ite State.withoutPayload _ _ _

theorem flushTx_withoutPayload (s : State) : flushTx s.withoutPayload = (flushTx s).map State.withoutPayload := by
  simp only [flushTx, apply_ite (Except.map State.withoutPayload)]
  rfl

theorem txSide_withoutPayload (r : Bool) (s : State) :
    txSide r s.withoutPayload = (txSide r s).map State.withoutPayload := by
  simp only [txSide, flushTx_withoutPayload, ← rejectTx_withoutPayload, apply_ite (Except.map State.withoutPayload)]
  rfl

theorem rxSide_withoutPayload (a : Bool) (n : BitVec 7) (s : State) :
    (rxSide a n s).withoutPayload = rxSide a n s.withoutPayload :=
  apply_ite State.withoutPayload _ _ _

/-! ### The same for the meanings and for a step -/

theorem viewOutcome_next (f : State → State) (s : State) : viewOutcome f (.next s) = .next (f s) := rfl

theorem viewOutcome_fault (f : State → State) (e : Fault) : viewOutcome f (.fault e) = .fault e := rfl

theorem execGet_withoutPayload (s : State) :
    viewOutcome State.withoutPayload (execGet s) = viewOutcome State.withoutPayload (execGet s.withoutPayload) := by
  simp only [execGet, apply_ite (viewOutcome State.withoutPayload), viewOutcome_next, viewOutcome_fault,
    State.finishIfDone_withoutPayload]
  rfl

theorem execPkt_withoutPayload (len : BitVec 12) (s : State) :
    viewOutcome State.withoutPayload (execPkt len s) =
      viewOutcome State.withoutPayload (execPkt len s.withoutPayload) := by
  simp only [execPkt, viewOutcome_next, State.finishIfDone_withoutPayload, classify_withoutPayload]
  rw [copyPayload_withoutPayload]

theorem execTick_withoutPayload (r a : Bool) (n : BitVec 7) (s : State) :
    viewOutcome State.withoutPayload (execTick r a n s) =
      viewOutcome State.withoutPayload (execTick r a n s.withoutPayload) := by
  unfold execTick
  rw [txSide_withoutPayload, show s.withoutPayload.cfg = s.cfg from rfl]
  cases tickReject s.cfg.cRx a n with
  | some why => rfl
  | none =>
    cases txSide r s with
    | error f => rfl
    | ok t =>
      have hrx : (rxSide a n t).withoutPayload = (rxSide a n t.withoutPayload).withoutPayload := by
        rw [← rxSide_withoutPayload]
        rfl
      exact congrArg (fun u : State => Host.Outcome.next u.countDraw) hrx

/-- What a meaning answers, seen without the payload, does not depend on the payload. -/
theorem exec_withoutPayload (i : Instr) (s : State) :
    viewOutcome State.withoutPayload (exec i s) = viewOutcome State.withoutPayload (exec i s.withoutPayload) := by
  cases i with
  | put b => rw [putLoadsOneMicroStep, putLoadsOneMicroStep]; rfl
  | putt b => rw [exec_putt_eq_next, exec_putt_eq_next]; rfl
  | get => exact execGet_withoutPayload s
  | pkt len => exact execPkt_withoutPayload len s
  | config => simp only [exec, execConfig, viewOutcome_next, State.finishIfDone_withoutPayload]; rfl
  | tick r a n => exact execTick_withoutPayload r a n s

theorem exec_congr_withoutPayload (i : Instr) {s s' : State} (h : s.withoutPayload = s'.withoutPayload) :
    viewOutcome State.withoutPayload (exec i s) = viewOutcome State.withoutPayload (exec i s') := by
  rw [exec_withoutPayload i s, h, ← exec_withoutPayload i s']

/-- A MAIN step takes its word and its lane from the command sequence, which is not forgotten. -/
theorem mainStep_withoutPayload (s : State) :
    viewOutcome State.withoutPayload (mainStep s) = viewOutcome State.withoutPayload (mainStep s.withoutPayload) := by
  by_cases hpend : s.mainPend = []
  · have hpend' : s.withoutPayload.mainPend = [] := hpend
    cases hcmd : s.cmds[s.ip]? with
    | none =>
      have hcmd' : s.withoutPayload.cmds[s.withoutPayload.ip]? = none := hcmd
      simp only [mainStep, hpend, hpend', hcmd, hcmd', if_true]
      rfl
    | some c =>
      rw [mainStep_of_command_at_ip hpend hcmd, mainStep_of_command_at_ip (s := s.withoutPayload) hpend hcmd]
      unfold issueCommand
      rw [show s.withoutPayload.cfg = s.cfg from rfl]
      cases decode s.cfg.cRx .command c.word with
      | error why => rfl
      | ok i => exact exec_congr_withoutPayload i rfl
  · have hpend' : s.withoutPayload.mainPend ≠ [] := hpend
    simp only [mainStep, hpend, hpend', if_false, viewOutcome_next, runMicroStep_withoutPayload]
    rfl

theorem tickStep_withoutPayload (w : Word) (lane : List Byte) (s : State) :
    viewOutcome State.withoutPayload (tickStep w lane s) =
      viewOutcome State.withoutPayload (tickStep w lane s.withoutPayload) := by
  unfold tickStep
  rw [show s.withoutPayload.cfg = s.cfg from rfl]
  cases decode s.cfg.cRx .tick w with
  | error why => rfl
  | ok i => exact exec_congr_withoutPayload i rfl

theorem step_withoutPayload (s : State) :
    viewOutcome State.withoutPayload (step s) = viewOutcome State.withoutPayload (step s.withoutPayload) := by
  rcases hturns : s.turns with _ | ⟨_ | ⟨w, lane⟩ | cmds, rest⟩
  · have hturns' : s.withoutPayload.turns = [] := hturns
    simp only [step, hturns, hturns']
    rfl
  · rw [step_of_main_turn hturns, step_of_main_turn (s := s.withoutPayload) hturns]
    exact mainStep_withoutPayload (s.setTurns rest)
  · rw [step_of_tick_turn hturns, step_of_tick_turn (s := s.withoutPayload) hturns]
    exact tickStep_withoutPayload w lane (s.setTurns rest)
  · rw [step_of_rst_turn hturns, step_of_rst_turn (s := s.withoutPayload) hturns]
    rfl

/-- Settles O44: both outcomes are the one of the common state without the payload. -/
theorem payloadPlaysNoPart : Obligations.PayloadPlaysNoPart := by
  refine fun s s' h => ⟨fun i => exec_congr_withoutPayload i h, ?_⟩
  rw [step_withoutPayload s, h, ← step_withoutPayload s']

end Sys2Proof.Machine

/-! PROOFS. The invariant of 10_state.md section 7: one rule per operation that touches a field it speaks of, then every
meaning and every step, and what follows for runs (R17, R36). -/

namespace Sys2Proof.Machine

/-! ### Rules per operation -/

/-- The reset values meet the invariant for any legal parameters (70_reset_and_hazards.md R141). -/
theorem inv_resetWith {c : Config} (hwf : c.Wf) : (State.resetWith c).Inv := by
  refine ⟨hwf, ⟨Nat.zero_le _, Nat.zero_le _⟩, ⟨Nat.zero_le _, Nat.zero_le _, fun h => absurd h (Nat.lt_irrefl 0)⟩,
    ⟨Nat.two_pow_pos _, Nat.two_pow_pos _⟩, nofun, ?_, nofun, nofun⟩
  exact ⟨⟨List.Pairwise.nil, nofun⟩, ⟨List.Pairwise.nil, nofun⟩, List.Pairwise.nil, nofun⟩

theorem inv_assertRst {s : State} (hinv : s.Inv) (cmds : List Command) : (s.assertRst cmds).Inv :=
  inv_resetWith hinv.1

/-- Lowering the count keeps the bytes below it written; the reject count must stay bounded and stand only while TX is
pending. -/
theorem inv_setTxq {s : State} {c : BitVec 7} {r : BitVec 3} {z : Bool} (hinv : s.Inv)
    (hcount : c.toNat ≤ s.txqCount.toNat) (hreject : r.toNat ≤ s.cfg.maxReject)
    (hpend : 0 < r.toNat → 0 < c.toNat ∨ z = true) : (s.setTxq c r z).Inv := by
  obtain ⟨hwf, hrx, ⟨hcap, -⟩, hacc, hres, hbuf, htx, hrxbuf⟩ := hinv
  exact ⟨hwf, hrx, ⟨hcount.trans hcap, hreject, hpend⟩, hacc, hres, hbuf, fun i hi => htx i (hi.trans_le hcount),
    hrxbuf⟩

/-- A put with room writes the byte that its count then covers. -/
theorem inv_put {s : State} (hinv : s.Inv) (b : Byte) (hroom : s.txqCount.toNat < s.cfg.cTx) :
    ((s.store .tx s.txqCount.toNat [b]).setTxq (s.txqCount + 1#7) s.txqReject s.txqZlp).Inv := by
  obtain ⟨⟨⟨hpos, hcap⟩, hwf⟩, hrx, ⟨-, hreject, -⟩, hacc, hres, ⟨⟨htxWf, htxBelow⟩, hbuf⟩, htx, hrxbuf⟩ := hinv
  have hcount := txqCount_add_one_toNat hcap hroom
  refine ⟨⟨⟨hpos, hcap⟩, hwf⟩, hrx, ⟨?_, hreject, fun _ => .inl ?_⟩, hacc, hres,
    ⟨⟨Memory.wf_writeAll _ _ _ htxWf, Memory.below_writeAll _ _ _ _ htxBelow hroom⟩, hbuf⟩, fun i hi => ?_, hrxbuf⟩
  · rw [State.setTxq_txqCount, hcount]
    exact hroom
  · rw [State.setTxq_txqCount, hcount]
    exact Nat.succ_pos _
  · rw [State.setTxq_txqCount, hcount] at hi
    rw [State.setTxq_txbuf, State.store_tx_txbuf, Memory.lookup_writeAll]
    split
    · rename_i hat
      rw [List.length_singleton] at hat
      rw [show i - s.txqCount.toNat = 0 by omega]
      rfl
    · rename_i hbelow
      rw [List.length_singleton] at hbelow
      exact htx i (by omega)

/-- A refill within the capacity writes every byte that its count then covers. -/
theorem inv_refillRx {s : State} (hinv : s.Inv) {n : BitVec 7} (hn : n.toNat ≤ s.cfg.cRx) : (refillRx n s).Inv := by
  obtain ⟨hwf, -, htxq, hacc, hres, ⟨htxbuf, ⟨hrxWf, hrxBelow⟩, hpkt⟩, htx, -⟩ := hinv
  have hlen : 0 + (s.batchBytes n.toNat).length ≤ s.cfg.cRx := by rw [Nat.zero_add, State.batchBytes_length]; exact hn
  refine ⟨hwf, ⟨Nat.zero_le _, hn⟩, htxq, hacc, hres,
    ⟨htxbuf, ⟨Memory.wf_writeAll _ _ _ hrxWf, Memory.below_writeAll _ _ _ _ hrxBelow hlen⟩, hpkt⟩, htx, fun i hi => ?_⟩
  have hi' : i < (s.batchBytes n.toNat).length := by rw [State.batchBytes_length]; exact hi
  rw [refillRx, State.setRxq_rxbuf, State.store_rx_rxbuf, Memory.lookup_writeAll, if_pos (by omega), Nat.sub_zero,
    List.getElem?_eq_getElem hi']
  rfl

/-- The payload stays below RXBUF_CAP (20_memory.md R45). -/
theorem inv_copyPayload {s : State} (hinv : s.Inv) (len : BitVec 12) : (copyPayload len s).Inv := by
  obtain ⟨hwf, hrx, htxq, hacc, hres, ⟨htxbuf, hrxbuf, hpktWf, hpktBelow⟩, hwritten⟩ := hinv
  have hlen : 0 + (s.packetBytes (min len.toNat s.cfg.rxbufCap)).length ≤ s.cfg.rxbufCap := by
    rw [Nat.zero_add, State.packetBytes_length]
    exact Nat.min_le_right _ _
  exact ⟨hwf, hrx, htxq, hacc, hres,
    ⟨htxbuf, hrxbuf, Memory.wf_writeAll _ _ _ hpktWf, Memory.below_writeAll _ _ _ _ hpktBelow hlen⟩, hwritten⟩

/-- Every class of packet writes the counters modulo their widths (R105, R121). -/
theorem accInv_classify {s : State} (hacc : s.AccInv) (len : BitVec 12) : (classify len s).AccInv := by
  have hnext : (s.accRxCount + 1) % 2 ^ s.cfg.wXfer < 2 ^ s.cfg.wXfer := Nat.mod_lt _ (Nat.two_pow_pos _)
  obtain ⟨-, h⟩ | ⟨-, h⟩ | ⟨-, -, h⟩ | ⟨-, -, h⟩ := classify_cases len s
  all_goals rw [h]
  · exact ⟨Nat.two_pow_pos _, hnext⟩
  · exact ⟨Nat.mod_lt _ (Nat.two_pow_pos _), hacc.2⟩
  · exact ⟨Nat.two_pow_pos _, hnext⟩
  · exact ⟨Nat.two_pow_pos _, hnext⟩

theorem inv_classify {s : State} (hinv : s.Inv) (len : BitVec 12) : (classify len s).Inv := by
  obtain ⟨hwf, hrx, htxq, hacc, hrest⟩ := hinv
  have hacc' := accInv_classify hacc len
  rw [classify_frame] at hacc' ⊢
  exact ⟨hwf, hrx, htxq, hacc', hrest⟩

/-- Where MAIN stands plays no part in the invariant. -/
theorem inv_finishIfDone {s : State} (hinv : s.Inv) : s.finishIfDone.Inv := by
  rw [State.finishIfDone_frame]
  exact hinv

/-! ### Rules per meaning -/

theorem inv_exec_get {s t : State} (hinv : s.Inv) (h : exec .get s = .next t) : t.Inv := by
  obtain ⟨hwf, ⟨hcursor, hcount⟩, htxq, hacc, -, hrest⟩ := hinv
  obtain ⟨hunread, -, ht⟩ | ⟨-, -, ht⟩ | ⟨-, ht⟩ := execGet_cases h
  · rw [Host.Outcome.next.inj ht]
    refine inv_finishIfDone ⟨hwf, ⟨?_, hcount⟩, htxq, hacc, fun _ => .inl (getResult_toNat_lt _), hrest⟩
    rw [State.setRxq_rxqCursor, cursor_add_one_toNat hunread]
    exact hunread
  · contradiction
  · rw [Host.Outcome.next.inj ht]
    exact inv_finishIfDone ⟨hwf, ⟨hcursor, hcount⟩, htxq, hacc, fun _ => .inr rfl, hrest⟩

theorem inv_txSide {r : Bool} {s t : State} (hinv : s.Inv) (h : txSide r s = .ok t) : t.Inv := by
  obtain ⟨-, -, -, -, hmax, -⟩ := hinv.1
  obtain ⟨-, rfl⟩ | ⟨-, -, -, rfl⟩ | ⟨hpend, -, hcount, rfl⟩ | ⟨-, -, -, rfl⟩ := txSide_cases h
  · exact hinv
  · exact inv_setTxq (s := s.record _) hinv (Nat.zero_le _) (Nat.zero_le _) (fun h => absurd h (by decide))
  · exact inv_setTxq hinv le_rfl (by rw [countedReject_toNat hmax hcount]; exact hcount)
      fun _ => s.txPending_eq_true_iff.1 hpend
  · exact inv_setTxq (s := s.record _) hinv (Nat.zero_le _) (Nat.zero_le _) (fun h => absurd h (by decide))

theorem inv_exec_tick {r a : Bool} {n : BitVec 7} {s u : State} (hinv : s.Inv) (h : exec (.tick r a n) s = .next u) :
    u.Inv := by
  obtain ⟨hwf, t, ht, rfl⟩ := execTick_next h
  have htinv := inv_txSide hinv ht
  obtain ⟨-, hn⟩ := (Instr.wf_tick_iff _ r a n).1 hwf
  obtain ⟨-, -, hrefill⟩ | ⟨-, hskip⟩ := rxSide_cases a n t
  · rw [hrefill]
    exact inv_refillRx htinv (by rw [txSide_frame ht]; exact hn)
  · rw [hskip]
    exact htinv

/-- Every meaning keeps the invariant. -/
theorem inv_exec {i : Instr} {s t : State} (hinv : s.Inv) (h : exec i s = .next t) : t.Inv := by
  cases i with
  | put b => rw [exec_put_frame h]; exact hinv
  | putt b => rw [exec_putt_frame h]; exact hinv
  | get => exact inv_exec_get hinv h
  | pkt len =>
    rw [← Host.Outcome.next.inj h]
    exact inv_finishIfDone (inv_classify (inv_copyPayload hinv len) len)
  | config =>
    obtain ⟨hwf, hrx, htxq, ⟨-, hcount⟩, hrest⟩ := hinv
    rw [exec_config_frame h]
    exact ⟨hwf, hrx, htxq, ⟨Nat.two_pow_pos _, hcount⟩, hrest⟩
  | tick r a n => exact inv_exec_tick hinv h

theorem inv_runMicroStep {s : State} (hinv : s.Inv) : (runMicroStep s).Inv := by
  rcases hcons : s.mainPend with _ | ⟨⟨b⟩, pend⟩
  · rw [runMicroStep_nil hcons]
    exact hinv
  · rcases Nat.lt_or_ge s.txqCount.toNat s.cfg.cTx with hroom | hfull
    · rw [runMicroStep_put hcons hroom]
      exact inv_finishIfDone (inv_put hinv b hroom)
    · rw [runMicroStep_hold hcons hfull]
      exact hinv

/-! ### Every step, and every run -/

/-- Settles O52: what a step does beside a meaning, a micro-step or a reset touches no field of the invariant. -/
theorem everyStepKeepsTheInvariant : Obligations.EveryStepKeepsTheInvariant := by
  intro s t hinv h
  obtain ⟨-, rfl⟩ | ⟨rest, -, -, -, rfl⟩ | ⟨rest, c, i, -, -, -, -, hexec⟩ | ⟨rest, -, -, rfl⟩ |
    ⟨rest, w, lane, r, a, n, -, -, hexec⟩ | ⟨rest, c, -, rfl⟩ := step_next_cases h
  · exact hinv
  · exact hinv
  · exact inv_exec (s := (s.setTurns rest).setOutLane c.lane) hinv hexec
  · exact inv_runMicroStep (s := s.setTurns rest) hinv
  · exact inv_exec_tick (s := (s.setTurns rest).setRxLane lane) hinv hexec
  · exact inv_assertRst (s := s.setTurns rest) hinv c

/-- Settles O51: the ports play no part in the invariant. -/
theorem resetStateMeetsTheInvariant : Obligations.ResetStateMeetsTheInvariant :=
  ⟨inv_resetWith (by decide), fun _ _ _ hwf => inv_resetWith hwf⟩

theorem inv_run {n : Nat} {s t : State} (hinv : s.Inv) (h : Sys2Proof.core.run n s = .next t) :
    t.Inv ∧ t.cfg = s.cfg := by
  induction n generalizing s with
  | zero =>
    obtain rfl : s = t := Host.Outcome.next.inj h
    exact ⟨hinv, rfl⟩
  | succ n ih =>
    simp only [Host.Core.run] at h
    split at h
    · rename_i u hu
      obtain ⟨htinv, htcfg⟩ := ih (everyStepKeepsTheInvariant s u hinv hu) h
      exact ⟨htinv, htcfg.trans (parametersNeverChange s u hu)⟩
    · contradiction
    · contradiction

/-- Settles O53: R36 is part of the invariant, which holds at reset and along every run. -/
theorem queueInvariantsHoldBetweenSteps : Obligations.QueueInvariantsHoldBetweenSteps := by
  intro c cmds turns n t hwf h
  obtain ⟨⟨-, hrx, htxq, -⟩, hcfg⟩ := inv_run (resetStateMeetsTheInvariant.2 c cmds turns hwf) h
  have hcfg' : t.cfg = c := hcfg
  rw [State.RxInv, hcfg'] at hrx
  rw [State.TxInv, hcfg'] at htxq
  exact ⟨hrx, htxq⟩

/-- In a state that meets the invariant no meaning reaches an index at or above a capacity (20_memory.md R43). -/
theorem exec_ne_fault_of_inv {i : Instr} {s : State} {f : Fault} (hinv : s.Inv) : exec i s ≠ .fault f := by
  obtain ⟨-, ⟨-, hcount⟩, ⟨hcap, -⟩, -⟩ := hinv
  cases i with
  | put b => rw [putLoadsOneMicroStep]; nofun
  | putt b => rw [exec_putt_eq_next]; nofun
  | get =>
    intro h
    obtain ⟨-, -, ht⟩ | ⟨hunread, hindex, -⟩ | ⟨-, ht⟩ := execGet_cases h
    · contradiction
    · omega
    · contradiction
  | pkt len => nofun
  | config => nofun
  | tick r a n => exact exec_tick_ne_fault hcap

/-- Settles O54: only a meaning could stop a step. -/
theorem noStepFaults : Obligations.NoStepFaults := by
  intro s f hinv h
  obtain ⟨t, hstep⟩ | ⟨_, _, _, -, -, -, -, hstep⟩ | ⟨_, _, _, _, -, -, hstep⟩ | ⟨i, u, hu, -, hstep⟩ :=
    step_outcome_cases s
  all_goals rw [hstep] at h
  · contradiction
  · contradiction
  · contradiction
  · have huinv : u.Inv := by rw [hu]; exact hinv
    exact exec_ne_fault_of_inv huinv h

/-- Settles O50: an assertion of `rst` and the reset state have the same values, and no byte written. -/
theorem resetGivesTheResetValues : Obligations.ResetGivesTheResetValues := by
  intro s cmds rest hturns
  refine ⟨_, step_of_rst_turn hturns, ?_⟩
  rintro u (rfl | rfl)
  · exact ⟨rfl, rfl, rfl, rfl, rfl, rfl, rfl, rfl, rfl, rfl, rfl, fun _ => ⟨rfl, rfl, rfl⟩,
      fun x i => by cases x <;> rfl⟩
  · refine ⟨rfl, rfl, rfl, rfl, rfl, rfl, rfl, rfl, rfl, rfl, rfl, fun h => ?_, fun x i => by cases x <;> rfl⟩
    rw [h]
    exact ⟨rfl, rfl, rfl⟩

end Sys2Proof.Machine

/-! PROOFS. The listings of 30_encoding.md R73 and R74: the commands that a line stands for, and what PUTS and PUTDEC
load. -/

namespace Sys2Proof.Machine

/-- Every command among the steps is the word of a command of the command port. -/
def CommandsEncoded (steps : List ListingStep) : Prop :=
  ∀ c, .command c ∈ steps → ∃ i : Instr, i.port = .command ∧ encode i = c.word

theorem commandsEncoded_nil : CommandsEncoded [] := nofun

theorem commandsEncoded_tick (w : Word) (lane : List Byte) : CommandsEncoded [.tick w lane] := by
  simp [CommandsEncoded]

theorem commandsEncoded_commandStep {i : Instr} (hport : i.port = .command) (lane : List Byte) :
    CommandsEncoded [commandStep i lane] := by
  intro c hc
  obtain rfl : c = ⟨encode i, lane⟩ := by simpa [commandStep] using hc
  exact ⟨i, hport, rfl⟩

/-- PUTS, and so PUTDEC, is made of PUTTs (R74). -/
theorem commandsEncoded_putsExpansion (text : List Byte) :
    CommandsEncoded ((putsExpansion text).map (commandStep · [])) := by
  intro c hc
  obtain ⟨b, -, rfl⟩ : ∃ b ∈ text, (⟨encode (.putt b), []⟩ : Command) = c := by
    simpa [putsExpansion, commandStep] using hc
  exact ⟨.putt b, rfl, rfl⟩

theorem commandsEncoded_tickStepOf {r a : Bool} {bs : List Byte} {steps : List ListingStep}
    (h : (tickStepOf r a bs).map ([·]) = some steps) : CommandsEncoded steps := by
  unfold tickStepOf at h
  split at h
  · obtain rfl := Option.some.inj h
    exact commandsEncoded_tick _ _
  · contradiction

theorem commandsEncoded_of_ite {p : Prop} [Decidable p] {x steps : List ListingStep} (hx : CommandsEncoded x)
    (h : (if p then some x else none) = some steps) : CommandsEncoded steps := by
  obtain ⟨-, hsteps⟩ := Option.ite_none_right_eq_some.1 h
  exact Option.some.inj hsteps ▸ hx

/-- Whatever tokens a line has, the commands it stands for are encoded ones. -/
theorem commandsEncoded_parseTokens {ts : List Token} {steps : List ListingStep} (h : parseTokens ts = some steps) :
    CommandsEncoded steps := by
  unfold parseTokens at h
  split at h
  · exact Option.some.inj h ▸ commandsEncoded_nil
  · exact Option.some.inj h ▸ commandsEncoded_nil
  · exact commandsEncoded_of_ite (commandsEncoded_commandStep rfl _) h
  · exact commandsEncoded_of_ite (commandsEncoded_commandStep rfl _) h
  · split at h
    · exact commandsEncoded_of_ite (commandsEncoded_commandStep rfl _) h
    · contradiction
  · split at h
    · exact commandsEncoded_of_ite (commandsEncoded_commandStep rfl _) h
    · contradiction
  · split at h
    · exact commandsEncoded_of_ite (commandsEncoded_commandStep rfl _) h
    · contradiction
  · exact commandsEncoded_of_ite (commandsEncoded_putsExpansion _) h
  · split at h
    · exact commandsEncoded_of_ite (commandsEncoded_putsExpansion _) h
    · contradiction
  · split at h
    · split at h
      · split at h
        · exact commandsEncoded_tickStepOf (Option.ite_none_right_eq_some.1 h).2
        · contradiction
      · exact commandsEncoded_tickStepOf (Option.ite_none_right_eq_some.1 h).2
    · contradiction
  · contradiction

theorem commandsEncoded_parseLine {line : List Char} {steps : List ListingStep} (h : parseLine line = some steps) :
    CommandsEncoded steps := by
  obtain ⟨ts, -, hts⟩ := Option.bind_eq_some_iff.1 h
  exact commandsEncoded_parseTokens hts

/-- Every command of the command port is legal: only TICK's fields are constrained (R67, R69). -/
theorem wf_of_command_port {i : Instr} (hport : i.port = .command) (cRx : Nat) : i.wf cRx = true := by
  cases i with
  | tick r a n => contradiction
  | _ => rfl

/-- Settles O8: a PUTT loads the string path of its character, and an encoded command decodes. -/
theorem pseudoInstructionsLoadTheirText : Obligations.PseudoInstructionsLoadTheirText := by
  refine ⟨fun text v s => ⟨rfl, rfl, ?_⟩, fun cRx line steps h c hc => ?_⟩
  · simp only [putsExpansion, List.flatMap_map, exec_putt_eq_next]
    rfl
  · obtain ⟨i, hport, hword⟩ := commandsEncoded_parseLine h c hc
    have hdecode := decodeOfEncodeIsTheCommand cRx i (wf_of_command_port hport cRx)
    rw [hport, hword] at hdecode
    exact ⟨i, hdecode, hword⟩

end Sys2Proof.Machine
